-- ==== Sys2Proof/Word.lean ====
section
/-! DEFINITION. The two word types of the block (R9, R13): an 8-bit unsigned byte and a 16-bit address.
Byte-order, field and sign-extension helpers stand in Decode.lean and Machine/, where a repair may mend them. -/

namespace Sys2Proof

/-- A byte: register contents, operand bytes and memory bytes (R13). Bit 0 is the least significant. -/
abbrev Byte := BitVec 8

/-- A 16-bit value: PC, effective addresses and pointers (R9, R62). -/
abbrev Addr := BitVec 16

end Sys2Proof
end

