-- ==== Sys2Proof/Config.lean ====
section
/-! DEFINITION. The configuration of the block: the implementation parameters of R10, each with its default.
A configuration is fixed for one session. State carries it (notes/assumptions/1.md), and no step changes it.
No parameter is an uninterpreted free value: the spec has no value it leaves open at execution time
(93_implementation_defined.md, end of Part 1). -/

namespace Sys2Proof

/-- `MEM_SIZE` (R10, R61): a power of two from 512 to 65536. One constructor for each admitted size. -/
inductive MemSize where
  | b512 | b1024 | b2048 | b4096 | b8192 | b16384 | b32768 | b65536
  deriving DecidableEq, Repr

/-- The number of bytes of data memory. -/
def MemSize.bytes : MemSize → Nat
  | .b512 => 512
  | .b1024 => 1024
  | .b2048 => 2048
  | .b4096 => 4096
  | .b8192 => 8192
  | .b16384 => 16384
  | .b32768 => 32768
  | .b65536 => 65536

/-- `OOB_POLICY` (R10, R64): what an address at or beyond `MEM_SIZE` does. -/
inductive OobPolicy where
  | wrap | error
  deriving DecidableEq, Repr

/-- `FETCH_SOURCE` (R10, R70): where instruction bytes come from. -/
inductive FetchSource where
  | stream | memory
  deriving DecidableEq, Repr

/-- `ILLEGAL_SET` (R10, R11): which undocumented opcodes decode. -/
inductive IllegalSet where
  | nestest80 | none
  deriving DecidableEq, Repr

/-- `DECIMAL_MODE` (R10, R12): what ADC, SBC, RRA and ISB do when D = 1. -/
inductive DecimalMode where
  | binary | refuse
  deriving DecidableEq, Repr

/-- The configuration of the block (R10, first sub-list). -/
structure Config where
  memSize     : MemSize
  oobPolicy   : OobPolicy
  fetchSource : FetchSource
  illegalSet  : IllegalSet
  decimalMode : DecimalMode
  /-- `HALT_OPCODES`: a set of bytes, of which only membership matters. -/
  haltOpcodes : List Byte
  deriving DecidableEq, Repr

/-- The default of every parameter (R10; D2, D3, D4, D6, D7, D8). -/
def Config.standard : Config where
  memSize := .b65536
  oobPolicy := .wrap
  fetchSource := .stream
  illegalSet := .nestest80
  decimalMode := .binary
  haltOpcodes := []

end Sys2Proof
end

