-- ==== Sys2Proof/Syntax.lean ====
section
/-! DEFINITION. The instructions as syntax: the mnemonics, the addressing modes with their operand bytes, and `Instr`,
one constructor for each row of spec/opcode_table.json (231). -/

namespace Sys2Proof

/-- The operation identity of an instruction (R103). A mnemonic the spec writes with a leading `*` (R142) has no star here;
`nopU` is `*NOP` and `sbcU` is `*SBC`, which differ from the documented `nop` and `sbc`. -/
inductive Mnemonic where
  -- Loads and stores (40_load_store.md)
  | lda | ldx | ldy | sta | stx | sty
  -- Increment and decrement (41_inc_dec.md)
  | inc | dec | inx | iny | dex | dey
  -- Compare and bit test (42_compare_bit.md)
  | cmp | cpx | cpy | bit
  -- Bitwise logical (43_logical.md)
  | and | ora | eor
  -- Addition and subtraction (44_add_sub.md)
  | adc | sbc
  -- Shift and rotate (45_shift_rotate.md)
  | asl | lsr | rol | ror
  -- Conditional branches (46_branch.md)
  | bpl | bmi | bvc | bvs | bcc | bcs | bne | beq
  -- Jumps, call, return, break (47_jump_call_return.md)
  | jmp | jsr | rts | brk | rti
  -- Stack, transfers, flags, NOP (48_stack_transfer_flag.md)
  | pha | php | pla | plp | tax | tay | txa | tya | tsx | txs
  | clc | sec | cli | sei | cld | sed | clv | nop
  -- Combined and undocumented (49_combined_undocumented.md)
  | slo | rla | sre | rra | dcp | isb | lax | sax | sbcU | nopU
  deriving DecidableEq, Repr

/-- The eight addressing modes that yield an effective address (R114 to R120), each with its operand bytes. A two-byte
operand is its 16-bit value `b2:b1`. -/
inductive MemMode where
  | zp   (base : Byte)   -- Zero Page, R114
  | zpX  (base : Byte)   -- Zero Page,X, R115
  | zpY  (base : Byte)   -- Zero Page,Y, R116
  | abs  (addr : Addr)   -- Absolute, R117
  | absX (addr : Addr)   -- Absolute,X, R118
  | absY (addr : Addr)   -- Absolute,Y, R118
  | indX (base : Byte)   -- Indexed Indirect, R119
  | indY (base : Byte)   -- Indirect Indexed, R120
  deriving DecidableEq, Repr

/-- An addressing mode with its operand bytes: the second and third parts of the decoded triple (R101, R103). -/
inductive Operand where
  | implied                      -- R111
  | accumulator                  -- R112
  | immediate (value : Byte)     -- R113
  | memory    (mode : MemMode)   -- R114 to R120
  | relative  (offset : Byte)    -- R121
  | indirect  (ptr : Addr)       -- R122
  deriving DecidableEq, Repr

/-- The operand of an instruction that reads a value (R110): a literal byte or a memory operand. -/
inductive Source where
  | imm (value : Byte)
  | mem (mode : MemMode)
  deriving DecidableEq, Repr

/-- The operand of a shift or rotate (R300): the accumulator or a memory operand. -/
inductive Target where
  | acc
  | mem (mode : MemMode)
  deriving DecidableEq, Repr

/-- A decoded instruction: one constructor for each row of spec/opcode_table.json. A constructor's name is the mnemonic and
the addressing mode; the 27 undocumented NOPs and the duplicate SBC also carry their opcode. -/
inductive Instr where
  -- Loads and stores (40_load_store.md)
  | ldaIndX (zp : Byte) | ldaZp (zp : Byte) | ldaImm (imm : Byte) | ldaAbs (addr : Addr) | ldaIndY (zp : Byte)
  | ldaZpX (zp : Byte) | ldaAbsY (addr : Addr) | ldaAbsX (addr : Addr)
  | ldxImm (imm : Byte) | ldxZp (zp : Byte) | ldxAbs (addr : Addr) | ldxZpY (zp : Byte) | ldxAbsY (addr : Addr)
  | ldyImm (imm : Byte) | ldyZp (zp : Byte) | ldyAbs (addr : Addr) | ldyZpX (zp : Byte) | ldyAbsX (addr : Addr)
  | staIndX (zp : Byte) | staZp (zp : Byte) | staAbs (addr : Addr) | staIndY (zp : Byte) | staZpX (zp : Byte)
  | staAbsY (addr : Addr) | staAbsX (addr : Addr)
  | stxZp (zp : Byte) | stxAbs (addr : Addr) | stxZpY (zp : Byte)
  | styZp (zp : Byte) | styAbs (addr : Addr) | styZpX (zp : Byte)
  -- Increment and decrement (41_inc_dec.md)
  | incZp (zp : Byte) | incAbs (addr : Addr) | incZpX (zp : Byte) | incAbsX (addr : Addr)
  | decZp (zp : Byte) | decAbs (addr : Addr) | decZpX (zp : Byte) | decAbsX (addr : Addr)
  | inx
  | iny
  | dex
  | dey
  -- Compare and bit test (42_compare_bit.md)
  | cmpIndX (zp : Byte) | cmpZp (zp : Byte) | cmpImm (imm : Byte) | cmpAbs (addr : Addr) | cmpIndY (zp : Byte)
  | cmpZpX (zp : Byte) | cmpAbsY (addr : Addr) | cmpAbsX (addr : Addr)
  | cpxImm (imm : Byte) | cpxZp (zp : Byte) | cpxAbs (addr : Addr)
  | cpyImm (imm : Byte) | cpyZp (zp : Byte) | cpyAbs (addr : Addr)
  | bitZp (zp : Byte) | bitAbs (addr : Addr)
  -- Bitwise logical (43_logical.md)
  | andIndX (zp : Byte) | andZp (zp : Byte) | andImm (imm : Byte) | andAbs (addr : Addr) | andIndY (zp : Byte)
  | andZpX (zp : Byte) | andAbsY (addr : Addr) | andAbsX (addr : Addr)
  | oraIndX (zp : Byte) | oraZp (zp : Byte) | oraImm (imm : Byte) | oraAbs (addr : Addr) | oraIndY (zp : Byte)
  | oraZpX (zp : Byte) | oraAbsY (addr : Addr) | oraAbsX (addr : Addr)
  | eorIndX (zp : Byte) | eorZp (zp : Byte) | eorImm (imm : Byte) | eorAbs (addr : Addr) | eorIndY (zp : Byte)
  | eorZpX (zp : Byte) | eorAbsY (addr : Addr) | eorAbsX (addr : Addr)
  -- Addition and subtraction (44_add_sub.md)
  | adcIndX (zp : Byte) | adcZp (zp : Byte) | adcImm (imm : Byte) | adcAbs (addr : Addr) | adcIndY (zp : Byte)
  | adcZpX (zp : Byte) | adcAbsY (addr : Addr) | adcAbsX (addr : Addr)
  | sbcIndX (zp : Byte) | sbcZp (zp : Byte) | sbcImm (imm : Byte) | sbcAbs (addr : Addr) | sbcIndY (zp : Byte)
  | sbcZpX (zp : Byte) | sbcAbsY (addr : Addr) | sbcAbsX (addr : Addr)
  -- Shift and rotate (45_shift_rotate.md)
  | aslZp (zp : Byte) | aslAcc | aslAbs (addr : Addr) | aslZpX (zp : Byte) | aslAbsX (addr : Addr)
  | lsrZp (zp : Byte) | lsrAcc | lsrAbs (addr : Addr) | lsrZpX (zp : Byte) | lsrAbsX (addr : Addr)
  | rolZp (zp : Byte) | rolAcc | rolAbs (addr : Addr) | rolZpX (zp : Byte) | rolAbsX (addr : Addr)
  | rorZp (zp : Byte) | rorAcc | rorAbs (addr : Addr) | rorZpX (zp : Byte) | rorAbsX (addr : Addr)
  -- Conditional branches (46_branch.md)
  | bpl (off : Byte)
  | bmi (off : Byte)
  | bvc (off : Byte)
  | bvs (off : Byte)
  | bcc (off : Byte)
  | bcs (off : Byte)
  | bne (off : Byte)
  | beq (off : Byte)
  -- Jumps, call, return, break (47_jump_call_return.md)
  | jmpAbs (addr : Addr) | jmpInd (ptr : Addr)
  | jsrAbs (addr : Addr)
  | rts
  | brk
  | rti
  -- Stack, transfers, flags, NOP (48_stack_transfer_flag.md)
  | pha
  | php
  | pla
  | plp
  | tax
  | tay
  | txa
  | tya
  | tsx
  | txs
  | clc
  | sec
  | cli
  | sei
  | cld
  | sed
  | clv
  | nop
  -- Combined and undocumented (49_combined_undocumented.md)
  | sloIndX (zp : Byte) | sloZp (zp : Byte) | sloAbs (addr : Addr) | sloIndY (zp : Byte) | sloZpX (zp : Byte)
  | sloAbsY (addr : Addr) | sloAbsX (addr : Addr)
  | rlaIndX (zp : Byte) | rlaZp (zp : Byte) | rlaAbs (addr : Addr) | rlaIndY (zp : Byte) | rlaZpX (zp : Byte)
  | rlaAbsY (addr : Addr) | rlaAbsX (addr : Addr)
  | sreIndX (zp : Byte) | sreZp (zp : Byte) | sreAbs (addr : Addr) | sreIndY (zp : Byte) | sreZpX (zp : Byte)
  | sreAbsY (addr : Addr) | sreAbsX (addr : Addr)
  | rraIndX (zp : Byte) | rraZp (zp : Byte) | rraAbs (addr : Addr) | rraIndY (zp : Byte) | rraZpX (zp : Byte)
  | rraAbsY (addr : Addr) | rraAbsX (addr : Addr)
  | dcpIndX (zp : Byte) | dcpZp (zp : Byte) | dcpAbs (addr : Addr) | dcpIndY (zp : Byte) | dcpZpX (zp : Byte)
  | dcpAbsY (addr : Addr) | dcpAbsX (addr : Addr)
  | isbIndX (zp : Byte) | isbZp (zp : Byte) | isbAbs (addr : Addr) | isbIndY (zp : Byte) | isbZpX (zp : Byte)
  | isbAbsY (addr : Addr) | isbAbsX (addr : Addr)
  | laxIndX (zp : Byte) | laxZp (zp : Byte) | laxAbs (addr : Addr) | laxIndY (zp : Byte) | laxZpY (zp : Byte)
  | laxAbsY (addr : Addr)
  | saxIndX (zp : Byte) | saxZp (zp : Byte) | saxAbs (addr : Addr) | saxZpY (zp : Byte)
  | sbcImmEB (imm : Byte)
  | nopZp04 (zp : Byte) | nopAbs0C (addr : Addr) | nopZpX14 (zp : Byte) | nopImp1A | nopAbsX1C (addr : Addr)
  | nopZpX34 (zp : Byte) | nopImp3A | nopAbsX3C (addr : Addr) | nopZp44 (zp : Byte) | nopZpX54 (zp : Byte) | nopImp5A
  | nopAbsX5C (addr : Addr) | nopZp64 (zp : Byte) | nopZpX74 (zp : Byte) | nopImp7A | nopAbsX7C (addr : Addr)
  | nopImm80 (imm : Byte) | nopImm82 (imm : Byte) | nopImm89 (imm : Byte) | nopImmC2 (imm : Byte) | nopZpXD4 (zp : Byte)
  | nopImpDA | nopAbsXDC (addr : Addr) | nopImmE2 (imm : Byte) | nopZpXF4 (zp : Byte) | nopImpFA | nopAbsXFC (addr : Addr)
  deriving DecidableEq, Repr

end Sys2Proof
end

