-- ==== Sys2Proof/Decode.lean ====
section
/-! DEFINITION. Decoding, total on any bytes and rejecting by name, and the encoder.
The decoder looks an opcode up in the 16 by 16 grid of R130. The encoder takes each opcode from the "Encodings" line of the
instruction's own rule (R200 to R410), so the two are written from different places of the spec. -/

namespace Sys2Proof

/-- The 16-bit value `hi:lo` (R14); `hi` is the byte at the higher address (R68). -/
def hiLo (hi lo : Byte) : Addr := hi ++ lo

/-- `lo8` of a 16-bit value (R14). -/
def lo8 (w : Addr) : Byte := w.extractLsb' 0 8

/-- `hi8` of a 16-bit value (R14). -/
def hi8 (w : Addr) : Byte := w.extractLsb' 8 8

/-- The number of operand bytes plus one: the length L that the addressing mode fixes (R101). -/
def Operand.length : Operand → Nat
  | .implied => 1
  | .accumulator => 1
  | .immediate _ => 2
  | .memory (.zp _) => 2
  | .memory (.zpX _) => 2
  | .memory (.zpY _) => 2
  | .memory (.abs _) => 3
  | .memory (.absX _) => 3
  | .memory (.absY _) => 3
  | .memory (.indX _) => 2
  | .memory (.indY _) => 2
  | .relative _ => 2
  | .indirect _ => 3

/-- The operand bytes `b1`, `b2` as they follow the opcode, low byte first (R101, R68). -/
def Operand.bytes : Operand → List Byte
  | .implied => []
  | .accumulator => []
  | .immediate b => [b]
  | .memory (.zp b) => [b]
  | .memory (.zpX b) => [b]
  | .memory (.zpY b) => [b]
  | .memory (.abs w) => [lo8 w, hi8 w]
  | .memory (.absX w) => [lo8 w, hi8 w]
  | .memory (.absY w) => [lo8 w, hi8 w]
  | .memory (.indX b) => [b]
  | .memory (.indY b) => [b]
  | .relative b => [b]
  | .indirect w => [lo8 w, hi8 w]

/-- A source operand as an addressing mode. -/
def Source.operand : Source → Operand
  | .imm v => .immediate v
  | .mem m => .memory m

/-- A shift operand as an addressing mode. -/
def Target.operand : Target → Operand
  | .acc => .accumulator
  | .mem m => .memory m

/-- The decoded triple of R103: the mnemonic, and the addressing mode with its operand bytes. -/
def Instr.triple : Instr → Mnemonic × Operand
  | .ldaIndX zp => (.lda, .memory (.indX zp))
  | .ldaZp zp => (.lda, .memory (.zp zp))
  | .ldaImm imm => (.lda, .immediate imm)
  | .ldaAbs addr => (.lda, .memory (.abs addr))
  | .ldaIndY zp => (.lda, .memory (.indY zp))
  | .ldaZpX zp => (.lda, .memory (.zpX zp))
  | .ldaAbsY addr => (.lda, .memory (.absY addr))
  | .ldaAbsX addr => (.lda, .memory (.absX addr))
  | .ldxImm imm => (.ldx, .immediate imm)
  | .ldxZp zp => (.ldx, .memory (.zp zp))
  | .ldxAbs addr => (.ldx, .memory (.abs addr))
  | .ldxZpY zp => (.ldx, .memory (.zpY zp))
  | .ldxAbsY addr => (.ldx, .memory (.absY addr))
  | .ldyImm imm => (.ldy, .immediate imm)
  | .ldyZp zp => (.ldy, .memory (.zp zp))
  | .ldyAbs addr => (.ldy, .memory (.abs addr))
  | .ldyZpX zp => (.ldy, .memory (.zpX zp))
  | .ldyAbsX addr => (.ldy, .memory (.absX addr))
  | .staIndX zp => (.sta, .memory (.indX zp))
  | .staZp zp => (.sta, .memory (.zp zp))
  | .staAbs addr => (.sta, .memory (.abs addr))
  | .staIndY zp => (.sta, .memory (.indY zp))
  | .staZpX zp => (.sta, .memory (.zpX zp))
  | .staAbsY addr => (.sta, .memory (.absY addr))
  | .staAbsX addr => (.sta, .memory (.absX addr))
  | .stxZp zp => (.stx, .memory (.zp zp))
  | .stxAbs addr => (.stx, .memory (.abs addr))
  | .stxZpY zp => (.stx, .memory (.zpY zp))
  | .styZp zp => (.sty, .memory (.zp zp))
  | .styAbs addr => (.sty, .memory (.abs addr))
  | .styZpX zp => (.sty, .memory (.zpX zp))
  | .incZp zp => (.inc, .memory (.zp zp))
  | .incAbs addr => (.inc, .memory (.abs addr))
  | .incZpX zp => (.inc, .memory (.zpX zp))
  | .incAbsX addr => (.inc, .memory (.absX addr))
  | .decZp zp => (.dec, .memory (.zp zp))
  | .decAbs addr => (.dec, .memory (.abs addr))
  | .decZpX zp => (.dec, .memory (.zpX zp))
  | .decAbsX addr => (.dec, .memory (.absX addr))
  | .inx => (.inx, .implied)
  | .iny => (.iny, .implied)
  | .dex => (.dex, .implied)
  | .dey => (.dey, .implied)
  | .cmpIndX zp => (.cmp, .memory (.indX zp))
  | .cmpZp zp => (.cmp, .memory (.zp zp))
  | .cmpImm imm => (.cmp, .immediate imm)
  | .cmpAbs addr => (.cmp, .memory (.abs addr))
  | .cmpIndY zp => (.cmp, .memory (.indY zp))
  | .cmpZpX zp => (.cmp, .memory (.zpX zp))
  | .cmpAbsY addr => (.cmp, .memory (.absY addr))
  | .cmpAbsX addr => (.cmp, .memory (.absX addr))
  | .cpxImm imm => (.cpx, .immediate imm)
  | .cpxZp zp => (.cpx, .memory (.zp zp))
  | .cpxAbs addr => (.cpx, .memory (.abs addr))
  | .cpyImm imm => (.cpy, .immediate imm)
  | .cpyZp zp => (.cpy, .memory (.zp zp))
  | .cpyAbs addr => (.cpy, .memory (.abs addr))
  | .bitZp zp => (.bit, .memory (.zp zp))
  | .bitAbs addr => (.bit, .memory (.abs addr))
  | .andIndX zp => (.and, .memory (.indX zp))
  | .andZp zp => (.and, .memory (.zp zp))
  | .andImm imm => (.and, .immediate imm)
  | .andAbs addr => (.and, .memory (.abs addr))
  | .andIndY zp => (.and, .memory (.indY zp))
  | .andZpX zp => (.and, .memory (.zpX zp))
  | .andAbsY addr => (.and, .memory (.absY addr))
  | .andAbsX addr => (.and, .memory (.absX addr))
  | .oraIndX zp => (.ora, .memory (.indX zp))
  | .oraZp zp => (.ora, .memory (.zp zp))
  | .oraImm imm => (.ora, .immediate imm)
  | .oraAbs addr => (.ora, .memory (.abs addr))
  | .oraIndY zp => (.ora, .memory (.indY zp))
  | .oraZpX zp => (.ora, .memory (.zpX zp))
  | .oraAbsY addr => (.ora, .memory (.absY addr))
  | .oraAbsX addr => (.ora, .memory (.absX addr))
  | .eorIndX zp => (.eor, .memory (.indX zp))
  | .eorZp zp => (.eor, .memory (.zp zp))
  | .eorImm imm => (.eor, .immediate imm)
  | .eorAbs addr => (.eor, .memory (.abs addr))
  | .eorIndY zp => (.eor, .memory (.indY zp))
  | .eorZpX zp => (.eor, .memory (.zpX zp))
  | .eorAbsY addr => (.eor, .memory (.absY addr))
  | .eorAbsX addr => (.eor, .memory (.absX addr))
  | .adcIndX zp => (.adc, .memory (.indX zp))
  | .adcZp zp => (.adc, .memory (.zp zp))
  | .adcImm imm => (.adc, .immediate imm)
  | .adcAbs addr => (.adc, .memory (.abs addr))
  | .adcIndY zp => (.adc, .memory (.indY zp))
  | .adcZpX zp => (.adc, .memory (.zpX zp))
  | .adcAbsY addr => (.adc, .memory (.absY addr))
  | .adcAbsX addr => (.adc, .memory (.absX addr))
  | .sbcIndX zp => (.sbc, .memory (.indX zp))
  | .sbcZp zp => (.sbc, .memory (.zp zp))
  | .sbcImm imm => (.sbc, .immediate imm)
  | .sbcAbs addr => (.sbc, .memory (.abs addr))
  | .sbcIndY zp => (.sbc, .memory (.indY zp))
  | .sbcZpX zp => (.sbc, .memory (.zpX zp))
  | .sbcAbsY addr => (.sbc, .memory (.absY addr))
  | .sbcAbsX addr => (.sbc, .memory (.absX addr))
  | .aslZp zp => (.asl, .memory (.zp zp))
  | .aslAcc => (.asl, .accumulator)
  | .aslAbs addr => (.asl, .memory (.abs addr))
  | .aslZpX zp => (.asl, .memory (.zpX zp))
  | .aslAbsX addr => (.asl, .memory (.absX addr))
  | .lsrZp zp => (.lsr, .memory (.zp zp))
  | .lsrAcc => (.lsr, .accumulator)
  | .lsrAbs addr => (.lsr, .memory (.abs addr))
  | .lsrZpX zp => (.lsr, .memory (.zpX zp))
  | .lsrAbsX addr => (.lsr, .memory (.absX addr))
  | .rolZp zp => (.rol, .memory (.zp zp))
  | .rolAcc => (.rol, .accumulator)
  | .rolAbs addr => (.rol, .memory (.abs addr))
  | .rolZpX zp => (.rol, .memory (.zpX zp))
  | .rolAbsX addr => (.rol, .memory (.absX addr))
  | .rorZp zp => (.ror, .memory (.zp zp))
  | .rorAcc => (.ror, .accumulator)
  | .rorAbs addr => (.ror, .memory (.abs addr))
  | .rorZpX zp => (.ror, .memory (.zpX zp))
  | .rorAbsX addr => (.ror, .memory (.absX addr))
  | .bpl off => (.bpl, .relative off)
  | .bmi off => (.bmi, .relative off)
  | .bvc off => (.bvc, .relative off)
  | .bvs off => (.bvs, .relative off)
  | .bcc off => (.bcc, .relative off)
  | .bcs off => (.bcs, .relative off)
  | .bne off => (.bne, .relative off)
  | .beq off => (.beq, .relative off)
  | .jmpAbs addr => (.jmp, .memory (.abs addr))
  | .jmpInd ptr => (.jmp, .indirect ptr)
  | .jsrAbs addr => (.jsr, .memory (.abs addr))
  | .rts => (.rts, .implied)
  | .brk => (.brk, .implied)
  | .rti => (.rti, .implied)
  | .pha => (.pha, .implied)
  | .php => (.php, .implied)
  | .pla => (.pla, .implied)
  | .plp => (.plp, .implied)
  | .tax => (.tax, .implied)
  | .tay => (.tay, .implied)
  | .txa => (.txa, .implied)
  | .tya => (.tya, .implied)
  | .tsx => (.tsx, .implied)
  | .txs => (.txs, .implied)
  | .clc => (.clc, .implied)
  | .sec => (.sec, .implied)
  | .cli => (.cli, .implied)
  | .sei => (.sei, .implied)
  | .cld => (.cld, .implied)
  | .sed => (.sed, .implied)
  | .clv => (.clv, .implied)
  | .nop => (.nop, .implied)
  | .sloIndX zp => (.slo, .memory (.indX zp))
  | .sloZp zp => (.slo, .memory (.zp zp))
  | .sloAbs addr => (.slo, .memory (.abs addr))
  | .sloIndY zp => (.slo, .memory (.indY zp))
  | .sloZpX zp => (.slo, .memory (.zpX zp))
  | .sloAbsY addr => (.slo, .memory (.absY addr))
  | .sloAbsX addr => (.slo, .memory (.absX addr))
  | .rlaIndX zp => (.rla, .memory (.indX zp))
  | .rlaZp zp => (.rla, .memory (.zp zp))
  | .rlaAbs addr => (.rla, .memory (.abs addr))
  | .rlaIndY zp => (.rla, .memory (.indY zp))
  | .rlaZpX zp => (.rla, .memory (.zpX zp))
  | .rlaAbsY addr => (.rla, .memory (.absY addr))
  | .rlaAbsX addr => (.rla, .memory (.absX addr))
  | .sreIndX zp => (.sre, .memory (.indX zp))
  | .sreZp zp => (.sre, .memory (.zp zp))
  | .sreAbs addr => (.sre, .memory (.abs addr))
  | .sreIndY zp => (.sre, .memory (.indY zp))
  | .sreZpX zp => (.sre, .memory (.zpX zp))
  | .sreAbsY addr => (.sre, .memory (.absY addr))
  | .sreAbsX addr => (.sre, .memory (.absX addr))
  | .rraIndX zp => (.rra, .memory (.indX zp))
  | .rraZp zp => (.rra, .memory (.zp zp))
  | .rraAbs addr => (.rra, .memory (.abs addr))
  | .rraIndY zp => (.rra, .memory (.indY zp))
  | .rraZpX zp => (.rra, .memory (.zpX zp))
  | .rraAbsY addr => (.rra, .memory (.absY addr))
  | .rraAbsX addr => (.rra, .memory (.absX addr))
  | .dcpIndX zp => (.dcp, .memory (.indX zp))
  | .dcpZp zp => (.dcp, .memory (.zp zp))
  | .dcpAbs addr => (.dcp, .memory (.abs addr))
  | .dcpIndY zp => (.dcp, .memory (.indY zp))
  | .dcpZpX zp => (.dcp, .memory (.zpX zp))
  | .dcpAbsY addr => (.dcp, .memory (.absY addr))
  | .dcpAbsX addr => (.dcp, .memory (.absX addr))
  | .isbIndX zp => (.isb, .memory (.indX zp))
  | .isbZp zp => (.isb, .memory (.zp zp))
  | .isbAbs addr => (.isb, .memory (.abs addr))
  | .isbIndY zp => (.isb, .memory (.indY zp))
  | .isbZpX zp => (.isb, .memory (.zpX zp))
  | .isbAbsY addr => (.isb, .memory (.absY addr))
  | .isbAbsX addr => (.isb, .memory (.absX addr))
  | .laxIndX zp => (.lax, .memory (.indX zp))
  | .laxZp zp => (.lax, .memory (.zp zp))
  | .laxAbs addr => (.lax, .memory (.abs addr))
  | .laxIndY zp => (.lax, .memory (.indY zp))
  | .laxZpY zp => (.lax, .memory (.zpY zp))
  | .laxAbsY addr => (.lax, .memory (.absY addr))
  | .saxIndX zp => (.sax, .memory (.indX zp))
  | .saxZp zp => (.sax, .memory (.zp zp))
  | .saxAbs addr => (.sax, .memory (.abs addr))
  | .saxZpY zp => (.sax, .memory (.zpY zp))
  | .sbcImmEB imm => (.sbcU, .immediate imm)
  | .nopZp04 zp => (.nopU, .memory (.zp zp))
  | .nopAbs0C addr => (.nopU, .memory (.abs addr))
  | .nopZpX14 zp => (.nopU, .memory (.zpX zp))
  | .nopImp1A => (.nopU, .implied)
  | .nopAbsX1C addr => (.nopU, .memory (.absX addr))
  | .nopZpX34 zp => (.nopU, .memory (.zpX zp))
  | .nopImp3A => (.nopU, .implied)
  | .nopAbsX3C addr => (.nopU, .memory (.absX addr))
  | .nopZp44 zp => (.nopU, .memory (.zp zp))
  | .nopZpX54 zp => (.nopU, .memory (.zpX zp))
  | .nopImp5A => (.nopU, .implied)
  | .nopAbsX5C addr => (.nopU, .memory (.absX addr))
  | .nopZp64 zp => (.nopU, .memory (.zp zp))
  | .nopZpX74 zp => (.nopU, .memory (.zpX zp))
  | .nopImp7A => (.nopU, .implied)
  | .nopAbsX7C addr => (.nopU, .memory (.absX addr))
  | .nopImm80 imm => (.nopU, .immediate imm)
  | .nopImm82 imm => (.nopU, .immediate imm)
  | .nopImm89 imm => (.nopU, .immediate imm)
  | .nopImmC2 imm => (.nopU, .immediate imm)
  | .nopZpXD4 zp => (.nopU, .memory (.zpX zp))
  | .nopImpDA => (.nopU, .implied)
  | .nopAbsXDC addr => (.nopU, .memory (.absX addr))
  | .nopImmE2 imm => (.nopU, .immediate imm)
  | .nopZpXF4 zp => (.nopU, .memory (.zpX zp))
  | .nopImpFA => (.nopU, .implied)
  | .nopAbsXFC addr => (.nopU, .memory (.absX addr))

/-- The operation identity of an instruction (R103). -/
def Instr.mnemonic (i : Instr) : Mnemonic := i.triple.1

/-- The addressing mode and operand bytes of an instruction (R103). -/
def Instr.operand (i : Instr) : Operand := i.triple.2

/-- The encoded length L of an instruction, opcode byte included (R101). BRK has L = 1 (R134). -/
def Instr.length (i : Instr) : Nat := i.operand.length

/-- The opcode byte of an instruction, from the "Encodings" line of its rule. -/
def Instr.opcode : Instr → Byte
  | .ldaIndX _ => 0xA1
  | .ldaZp _ => 0xA5
  | .ldaImm _ => 0xA9
  | .ldaAbs _ => 0xAD
  | .ldaIndY _ => 0xB1
  | .ldaZpX _ => 0xB5
  | .ldaAbsY _ => 0xB9
  | .ldaAbsX _ => 0xBD
  | .ldxImm _ => 0xA2
  | .ldxZp _ => 0xA6
  | .ldxAbs _ => 0xAE
  | .ldxZpY _ => 0xB6
  | .ldxAbsY _ => 0xBE
  | .ldyImm _ => 0xA0
  | .ldyZp _ => 0xA4
  | .ldyAbs _ => 0xAC
  | .ldyZpX _ => 0xB4
  | .ldyAbsX _ => 0xBC
  | .staIndX _ => 0x81
  | .staZp _ => 0x85
  | .staAbs _ => 0x8D
  | .staIndY _ => 0x91
  | .staZpX _ => 0x95
  | .staAbsY _ => 0x99
  | .staAbsX _ => 0x9D
  | .stxZp _ => 0x86
  | .stxAbs _ => 0x8E
  | .stxZpY _ => 0x96
  | .styZp _ => 0x84
  | .styAbs _ => 0x8C
  | .styZpX _ => 0x94
  | .incZp _ => 0xE6
  | .incAbs _ => 0xEE
  | .incZpX _ => 0xF6
  | .incAbsX _ => 0xFE
  | .decZp _ => 0xC6
  | .decAbs _ => 0xCE
  | .decZpX _ => 0xD6
  | .decAbsX _ => 0xDE
  | .inx => 0xE8
  | .iny => 0xC8
  | .dex => 0xCA
  | .dey => 0x88
  | .cmpIndX _ => 0xC1
  | .cmpZp _ => 0xC5
  | .cmpImm _ => 0xC9
  | .cmpAbs _ => 0xCD
  | .cmpIndY _ => 0xD1
  | .cmpZpX _ => 0xD5
  | .cmpAbsY _ => 0xD9
  | .cmpAbsX _ => 0xDD
  | .cpxImm _ => 0xE0
  | .cpxZp _ => 0xE4
  | .cpxAbs _ => 0xEC
  | .cpyImm _ => 0xC0
  | .cpyZp _ => 0xC4
  | .cpyAbs _ => 0xCC
  | .bitZp _ => 0x24
  | .bitAbs _ => 0x2C
  | .andIndX _ => 0x21
  | .andZp _ => 0x25
  | .andImm _ => 0x29
  | .andAbs _ => 0x2D
  | .andIndY _ => 0x31
  | .andZpX _ => 0x35
  | .andAbsY _ => 0x39
  | .andAbsX _ => 0x3D
  | .oraIndX _ => 0x01
  | .oraZp _ => 0x05
  | .oraImm _ => 0x09
  | .oraAbs _ => 0x0D
  | .oraIndY _ => 0x11
  | .oraZpX _ => 0x15
  | .oraAbsY _ => 0x19
  | .oraAbsX _ => 0x1D
  | .eorIndX _ => 0x41
  | .eorZp _ => 0x45
  | .eorImm _ => 0x49
  | .eorAbs _ => 0x4D
  | .eorIndY _ => 0x51
  | .eorZpX _ => 0x55
  | .eorAbsY _ => 0x59
  | .eorAbsX _ => 0x5D
  | .adcIndX _ => 0x61
  | .adcZp _ => 0x65
  | .adcImm _ => 0x69
  | .adcAbs _ => 0x6D
  | .adcIndY _ => 0x71
  | .adcZpX _ => 0x75
  | .adcAbsY _ => 0x79
  | .adcAbsX _ => 0x7D
  | .sbcIndX _ => 0xE1
  | .sbcZp _ => 0xE5
  | .sbcImm _ => 0xE9
  | .sbcAbs _ => 0xED
  | .sbcIndY _ => 0xF1
  | .sbcZpX _ => 0xF5
  | .sbcAbsY _ => 0xF9
  | .sbcAbsX _ => 0xFD
  | .aslZp _ => 0x06
  | .aslAcc => 0x0A
  | .aslAbs _ => 0x0E
  | .aslZpX _ => 0x16
  | .aslAbsX _ => 0x1E
  | .lsrZp _ => 0x46
  | .lsrAcc => 0x4A
  | .lsrAbs _ => 0x4E
  | .lsrZpX _ => 0x56
  | .lsrAbsX _ => 0x5E
  | .rolZp _ => 0x26
  | .rolAcc => 0x2A
  | .rolAbs _ => 0x2E
  | .rolZpX _ => 0x36
  | .rolAbsX _ => 0x3E
  | .rorZp _ => 0x66
  | .rorAcc => 0x6A
  | .rorAbs _ => 0x6E
  | .rorZpX _ => 0x76
  | .rorAbsX _ => 0x7E
  | .bpl _ => 0x10
  | .bmi _ => 0x30
  | .bvc _ => 0x50
  | .bvs _ => 0x70
  | .bcc _ => 0x90
  | .bcs _ => 0xB0
  | .bne _ => 0xD0
  | .beq _ => 0xF0
  | .jmpAbs _ => 0x4C
  | .jmpInd _ => 0x6C
  | .jsrAbs _ => 0x20
  | .rts => 0x60
  | .brk => 0x00
  | .rti => 0x40
  | .pha => 0x48
  | .php => 0x08
  | .pla => 0x68
  | .plp => 0x28
  | .tax => 0xAA
  | .tay => 0xA8
  | .txa => 0x8A
  | .tya => 0x98
  | .tsx => 0xBA
  | .txs => 0x9A
  | .clc => 0x18
  | .sec => 0x38
  | .cli => 0x58
  | .sei => 0x78
  | .cld => 0xD8
  | .sed => 0xF8
  | .clv => 0xB8
  | .nop => 0xEA
  | .sloIndX _ => 0x03
  | .sloZp _ => 0x07
  | .sloAbs _ => 0x0F
  | .sloIndY _ => 0x13
  | .sloZpX _ => 0x17
  | .sloAbsY _ => 0x1B
  | .sloAbsX _ => 0x1F
  | .rlaIndX _ => 0x23
  | .rlaZp _ => 0x27
  | .rlaAbs _ => 0x2F
  | .rlaIndY _ => 0x33
  | .rlaZpX _ => 0x37
  | .rlaAbsY _ => 0x3B
  | .rlaAbsX _ => 0x3F
  | .sreIndX _ => 0x43
  | .sreZp _ => 0x47
  | .sreAbs _ => 0x4F
  | .sreIndY _ => 0x53
  | .sreZpX _ => 0x57
  | .sreAbsY _ => 0x5B
  | .sreAbsX _ => 0x5F
  | .rraIndX _ => 0x63
  | .rraZp _ => 0x67
  | .rraAbs _ => 0x6F
  | .rraIndY _ => 0x73
  | .rraZpX _ => 0x77
  | .rraAbsY _ => 0x7B
  | .rraAbsX _ => 0x7F
  | .dcpIndX _ => 0xC3
  | .dcpZp _ => 0xC7
  | .dcpAbs _ => 0xCF
  | .dcpIndY _ => 0xD3
  | .dcpZpX _ => 0xD7
  | .dcpAbsY _ => 0xDB
  | .dcpAbsX _ => 0xDF
  | .isbIndX _ => 0xE3
  | .isbZp _ => 0xE7
  | .isbAbs _ => 0xEF
  | .isbIndY _ => 0xF3
  | .isbZpX _ => 0xF7
  | .isbAbsY _ => 0xFB
  | .isbAbsX _ => 0xFF
  | .laxIndX _ => 0xA3
  | .laxZp _ => 0xA7
  | .laxAbs _ => 0xAF
  | .laxIndY _ => 0xB3
  | .laxZpY _ => 0xB7
  | .laxAbsY _ => 0xBF
  | .saxIndX _ => 0x83
  | .saxZp _ => 0x87
  | .saxAbs _ => 0x8F
  | .saxZpY _ => 0x97
  | .sbcImmEB _ => 0xEB
  | .nopZp04 _ => 0x04
  | .nopAbs0C _ => 0x0C
  | .nopZpX14 _ => 0x14
  | .nopImp1A => 0x1A
  | .nopAbsX1C _ => 0x1C
  | .nopZpX34 _ => 0x34
  | .nopImp3A => 0x3A
  | .nopAbsX3C _ => 0x3C
  | .nopZp44 _ => 0x44
  | .nopZpX54 _ => 0x54
  | .nopImp5A => 0x5A
  | .nopAbsX5C _ => 0x5C
  | .nopZp64 _ => 0x64
  | .nopZpX74 _ => 0x74
  | .nopImp7A => 0x7A
  | .nopAbsX7C _ => 0x7C
  | .nopImm80 _ => 0x80
  | .nopImm82 _ => 0x82
  | .nopImm89 _ => 0x89
  | .nopImmC2 _ => 0xC2
  | .nopZpXD4 _ => 0xD4
  | .nopImpDA => 0xDA
  | .nopAbsXDC _ => 0xDC
  | .nopImmE2 _ => 0xE2
  | .nopZpXF4 _ => 0xF4
  | .nopImpFA => 0xFA
  | .nopAbsXFC _ => 0xFC

/-- The words of an instruction: the opcode byte, then its operand bytes (R101). -/
def encode (i : Instr) : List Byte := i.opcode :: i.operand.bytes

/-- A cell of the opcode map that holds an instruction: what remains to be supplied is its operand bytes. -/
inductive Template where
  | one   (i : Instr)
  | two   (f : Byte → Instr)
  | three (f : Addr → Instr)

/-- The length L of the instruction a cell stands for (R101). -/
def Template.length : Template → Nat
  | .one _ => 1
  | .two _ => 2
  | .three _ => 3

/-- Row 0 of the opcode map (R130): opcodes 0x00 to 0x0F. `none` is a cell marked `--` (R132). -/
def gridRow0 : List (Option Template) :=
  [some (.one .brk), some (.two .oraIndX), none, some (.two .sloIndX),
   some (.two .nopZp04), some (.two .oraZp), some (.two .aslZp), some (.two .sloZp),
   some (.one .php), some (.two .oraImm), some (.one .aslAcc), none,
   some (.three .nopAbs0C), some (.three .oraAbs), some (.three .aslAbs), some (.three .sloAbs)]

/-- Row 1 of the opcode map (R130): opcodes 0x10 to 0x1F. `none` is a cell marked `--` (R132). -/
def gridRow1 : List (Option Template) :=
  [some (.two .bpl), some (.two .oraIndY), none, some (.two .sloIndY),
   some (.two .nopZpX14), some (.two .oraZpX), some (.two .aslZpX), some (.two .sloZpX),
   some (.one .clc), some (.three .oraAbsY), some (.one .nopImp1A), some (.three .sloAbsY),
   some (.three .nopAbsX1C), some (.three .oraAbsX), some (.three .aslAbsX), some (.three .sloAbsX)]

/-- Row 2 of the opcode map (R130): opcodes 0x20 to 0x2F. `none` is a cell marked `--` (R132). -/
def gridRow2 : List (Option Template) :=
  [some (.three .jsrAbs), some (.two .andIndX), none, some (.two .rlaIndX),
   some (.two .bitZp), some (.two .andZp), some (.two .rolZp), some (.two .rlaZp),
   some (.one .plp), some (.two .andImm), some (.one .rolAcc), none,
   some (.three .bitAbs), some (.three .andAbs), some (.three .rolAbs), some (.three .rlaAbs)]

/-- Row 3 of the opcode map (R130): opcodes 0x30 to 0x3F. `none` is a cell marked `--` (R132). -/
def gridRow3 : List (Option Template) :=
  [some (.two .bmi), some (.two .andIndY), none, some (.two .rlaIndY),
   some (.two .nopZpX34), some (.two .andZpX), some (.two .rolZpX), some (.two .rlaZpX),
   some (.one .sec), some (.three .andAbsY), some (.one .nopImp3A), some (.three .rlaAbsY),
   some (.three .nopAbsX3C), some (.three .andAbsX), some (.three .rolAbsX), some (.three .rlaAbsX)]

/-- Row 4 of the opcode map (R130): opcodes 0x40 to 0x4F. `none` is a cell marked `--` (R132). -/
def gridRow4 : List (Option Template) :=
  [some (.one .rti), some (.two .eorIndX), none, some (.two .sreIndX),
   some (.two .nopZp44), some (.two .eorZp), some (.two .lsrZp), some (.two .sreZp),
   some (.one .pha), some (.two .eorImm), some (.one .lsrAcc), none,
   some (.three .jmpAbs), some (.three .eorAbs), some (.three .lsrAbs), some (.three .sreAbs)]

/-- Row 5 of the opcode map (R130): opcodes 0x50 to 0x5F. `none` is a cell marked `--` (R132). -/
def gridRow5 : List (Option Template) :=
  [some (.two .bvc), some (.two .eorIndY), none, some (.two .sreIndY),
   some (.two .nopZpX54), some (.two .eorZpX), some (.two .lsrZpX), some (.two .sreZpX),
   some (.one .cli), some (.three .eorAbsY), some (.one .nopImp5A), some (.three .sreAbsY),
   some (.three .nopAbsX5C), some (.three .eorAbsX), some (.three .lsrAbsX), some (.three .sreAbsX)]

/-- Row 6 of the opcode map (R130): opcodes 0x60 to 0x6F. `none` is a cell marked `--` (R132). -/
def gridRow6 : List (Option Template) :=
  [some (.one .rts), some (.two .adcIndX), none, some (.two .rraIndX),
   some (.two .nopZp64), some (.two .adcZp), some (.two .rorZp), some (.two .rraZp),
   some (.one .pla), some (.two .adcImm), some (.one .rorAcc), none,
   some (.three .jmpInd), some (.three .adcAbs), some (.three .rorAbs), some (.three .rraAbs)]

/-- Row 7 of the opcode map (R130): opcodes 0x70 to 0x7F. `none` is a cell marked `--` (R132). -/
def gridRow7 : List (Option Template) :=
  [some (.two .bvs), some (.two .adcIndY), none, some (.two .rraIndY),
   some (.two .nopZpX74), some (.two .adcZpX), some (.two .rorZpX), some (.two .rraZpX),
   some (.one .sei), some (.three .adcAbsY), some (.one .nopImp7A), some (.three .rraAbsY),
   some (.three .nopAbsX7C), some (.three .adcAbsX), some (.three .rorAbsX), some (.three .rraAbsX)]

/-- Row 8 of the opcode map (R130): opcodes 0x80 to 0x8F. `none` is a cell marked `--` (R132). -/
def gridRow8 : List (Option Template) :=
  [some (.two .nopImm80), some (.two .staIndX), some (.two .nopImm82), some (.two .saxIndX),
   some (.two .styZp), some (.two .staZp), some (.two .stxZp), some (.two .saxZp),
   some (.one .dey), some (.two .nopImm89), some (.one .txa), none,
   some (.three .styAbs), some (.three .staAbs), some (.three .stxAbs), some (.three .saxAbs)]

/-- Row 9 of the opcode map (R130): opcodes 0x90 to 0x9F. `none` is a cell marked `--` (R132). -/
def gridRow9 : List (Option Template) :=
  [some (.two .bcc), some (.two .staIndY), none, none,
   some (.two .styZpX), some (.two .staZpX), some (.two .stxZpY), some (.two .saxZpY),
   some (.one .tya), some (.three .staAbsY), some (.one .txs), none,
   none, some (.three .staAbsX), none, none]

/-- Row A of the opcode map (R130): opcodes 0xA0 to 0xAF. `none` is a cell marked `--` (R132). -/
def gridRowA : List (Option Template) :=
  [some (.two .ldyImm), some (.two .ldaIndX), some (.two .ldxImm), some (.two .laxIndX),
   some (.two .ldyZp), some (.two .ldaZp), some (.two .ldxZp), some (.two .laxZp),
   some (.one .tay), some (.two .ldaImm), some (.one .tax), none,
   some (.three .ldyAbs), some (.three .ldaAbs), some (.three .ldxAbs), some (.three .laxAbs)]

/-- Row B of the opcode map (R130): opcodes 0xB0 to 0xBF. `none` is a cell marked `--` (R132). -/
def gridRowB : List (Option Template) :=
  [some (.two .bcs), some (.two .ldaIndY), none, some (.two .laxIndY),
   some (.two .ldyZpX), some (.two .ldaZpX), some (.two .ldxZpY), some (.two .laxZpY),
   some (.one .clv), some (.three .ldaAbsY), some (.one .tsx), none,
   some (.three .ldyAbsX), some (.three .ldaAbsX), some (.three .ldxAbsY), some (.three .laxAbsY)]

/-- Row C of the opcode map (R130): opcodes 0xC0 to 0xCF. `none` is a cell marked `--` (R132). -/
def gridRowC : List (Option Template) :=
  [some (.two .cpyImm), some (.two .cmpIndX), some (.two .nopImmC2), some (.two .dcpIndX),
   some (.two .cpyZp), some (.two .cmpZp), some (.two .decZp), some (.two .dcpZp),
   some (.one .iny), some (.two .cmpImm), some (.one .dex), none,
   some (.three .cpyAbs), some (.three .cmpAbs), some (.three .decAbs), some (.three .dcpAbs)]

/-- Row D of the opcode map (R130): opcodes 0xD0 to 0xDF. `none` is a cell marked `--` (R132). -/
def gridRowD : List (Option Template) :=
  [some (.two .bne), some (.two .cmpIndY), none, some (.two .dcpIndY),
   some (.two .nopZpXD4), some (.two .cmpZpX), some (.two .decZpX), some (.two .dcpZpX),
   some (.one .cld), some (.three .cmpAbsY), some (.one .nopImpDA), some (.three .dcpAbsY),
   some (.three .nopAbsXDC), some (.three .cmpAbsX), some (.three .decAbsX), some (.three .dcpAbsX)]

/-- Row E of the opcode map (R130): opcodes 0xE0 to 0xEF. `none` is a cell marked `--` (R132). -/
def gridRowE : List (Option Template) :=
  [some (.two .cpxImm), some (.two .sbcIndX), some (.two .nopImmE2), some (.two .isbIndX),
   some (.two .cpxZp), some (.two .sbcZp), some (.two .incZp), some (.two .isbZp),
   some (.one .inx), some (.two .sbcImm), some (.one .nop), some (.two .sbcImmEB),
   some (.three .cpxAbs), some (.three .sbcAbs), some (.three .incAbs), some (.three .isbAbs)]

/-- Row F of the opcode map (R130): opcodes 0xF0 to 0xFF. `none` is a cell marked `--` (R132). -/
def gridRowF : List (Option Template) :=
  [some (.two .beq), some (.two .sbcIndY), none, some (.two .isbIndY),
   some (.two .nopZpXF4), some (.two .sbcZpX), some (.two .incZpX), some (.two .isbZpX),
   some (.one .sed), some (.three .sbcAbsY), some (.one .nopImpFA), some (.three .isbAbsY),
   some (.three .nopAbsXFC), some (.three .sbcAbsX), some (.three .incAbsX), some (.three .isbAbsX)]

/-- The opcode map of R130, indexed by the high and then by the low digit of the opcode. -/
def opcodeGrid : List (List (Option Template)) :=
  [gridRow0, gridRow1, gridRow2, gridRow3, gridRow4, gridRow5, gridRow6, gridRow7,
   gridRow8, gridRow9, gridRowA, gridRowB, gridRowC, gridRowD, gridRowE, gridRowF]

/-- `Table(opc)` of R102: the cell of an opcode byte. -/
def tableCell (opc : Byte) : Option Template :=
  (opcodeGrid.getD (opc.toNat / 16) []).getD (opc.toNat % 16) none

/-- The 80 undocumented opcodes that `ILLEGAL_SET = nestest80` admits, as R131 lists them by mnemonic. -/
def undocumentedOpcodes : List Byte :=
  [0x1A, 0x3A, 0x5A, 0x7A, 0xDA, 0xFA, 0x80, 0x82, 0x89, 0xC2, 0xE2, 0x04, 0x44, 0x64, 0x14, 0x34, 0x54, 0x74, 0xD4, 0xF4, 0x0C, 0x1C, 0x3C, 0x5C, 0x7C, 0xDC, 0xFC] ++
  [0xA3, 0xA7, 0xAF, 0xB3, 0xB7, 0xBF] ++
  [0x83, 0x87, 0x8F, 0x97] ++
  [0xEB] ++
  [0x03, 0x07, 0x0F, 0x13, 0x17, 0x1B, 0x1F] ++
  [0x23, 0x27, 0x2F, 0x33, 0x37, 0x3B, 0x3F] ++
  [0x43, 0x47, 0x4F, 0x53, 0x57, 0x5B, 0x5F] ++
  [0x63, 0x67, 0x6F, 0x73, 0x77, 0x7B, 0x7F] ++
  [0xC3, 0xC7, 0xCF, 0xD3, 0xD7, 0xDB, 0xDF] ++
  [0xE3, 0xE7, 0xEF, 0xF3, 0xF7, 0xFB, 0xFF]

/-- What an opcode byte is under a configuration: exactly one of the three of R133. -/
inductive OpcodeClass where
  | halt                        -- in HALT_OPCODES, which takes precedence over the table
  | unknown                     -- not admitted (R132, R131)
  | admitted (cell : Template)

/-- The classification of R102 and R133: HALT_OPCODES first, then admission, then the table. -/
def classify (cfg : Config) (opc : Byte) : OpcodeClass :=
  if opc ∈ cfg.haltOpcodes then .halt
  else match tableCell opc with
    | none => .unknown
    | some cell =>
      if cfg.illegalSet = .none ∧ opc ∈ undocumentedOpcodes then .unknown else .admitted cell

/-- Why a byte sequence does not decode. -/
inductive DecodeReject where
  | endOfBytes                   -- no opcode byte
  | haltOpcode (opc : Byte)      -- an explicit halt opcode (R507)
  | unknownOpcode (opc : Byte)   -- UnknownOpcode (R501)
  | truncatedOperand             -- TruncatedOperand (R502)
  deriving DecidableEq, Repr

/-- Decode the instruction at the head of a byte sequence, and return it with the bytes that follow it. It consumes exactly
L bytes (R104). The checks run in the order of R102. -/
def decode (cfg : Config) : List Byte → Except DecodeReject (Instr × List Byte)
  | [] => .error .endOfBytes
  | opc :: rest =>
    match classify cfg opc with
    | .halt => .error (.haltOpcode opc)
    | .unknown => .error (.unknownOpcode opc)
    | .admitted (.one i) => .ok (i, rest)
    | .admitted (.two f) =>
      match rest with
      | b1 :: rest' => .ok (f b1, rest')
      | [] => .error .truncatedOperand
    | .admitted (.three f) =>
      match rest with
      | b1 :: b2 :: rest' => .ok (f (hiLo b2 b1), rest')
      | _ => .error .truncatedOperand

/-- The three bytes of a word numbered as spec/opcode_table.json numbers its bits: bit 0 is the least significant bit of the
first byte, and every bit at or above `nbits` is 0. Three bytes is the longest instruction (R101). -/
def tableWordBytes (nbits w : Nat) : List Byte :=
  [BitVec.ofNat 8 (w % 2 ^ nbits), BitVec.ofNat 8 (w % 2 ^ nbits / 256), BitVec.ofNat 8 (w % 2 ^ nbits / 65536)]

/-- The instruction the decoder reads from a table word, under the standard configuration (notes/assumptions/9.md). -/
def decodeTableWord (nbits w : Nat) : Option Instr :=
  match decode Config.standard (tableWordBytes nbits w) with
  | .ok (i, _) => some i
  | .error _ => none

end Sys2Proof
end

