-- ==== Sys2Proof/WellFormed.lean ====
section
/-! DEFINITION. When an instruction is well formed for a configuration. Its operands are bytes and 16-bit values by their
types, so what remains to check is that the configuration lets its opcode decode (R133): the opcode is documented or
ILLEGAL_SET admits it, and it is not an explicit halt opcode. -/

namespace Sys2Proof

/-- The instruction is admitted by ILLEGAL_SET (R11, R131). -/
def Instr.admitted (cfg : Config) (i : Instr) : Bool :=
  cfg.illegalSet == .nestest80 || !(undocumentedOpcodes.contains i.opcode)

/-- The instruction's opcode is not taken by HALT_OPCODES (R102, R133). -/
def Instr.notHalt (cfg : Config) (i : Instr) : Bool :=
  !(cfg.haltOpcodes.contains i.opcode)

/-- The instruction can be decoded from its words under the configuration. -/
def Instr.wellFormed (cfg : Config) (i : Instr) : Bool :=
  i.admitted cfg && i.notHalt cfg

end Sys2Proof
end

