-- ==== Sys2Proof/Machine/State.lean ====
section
/-! DEFINITION. The architectural state (R30 to R49), session creation (R600), and the reasons a step can stop.
State is plain data. `cfg` and `code` are the session's fixed inputs and not the spec's state (R48); they stand here because
the step has no other argument (notes/assumptions/1.md), and no step changes them. -/

namespace Sys2Proof.Machine

/-- The flag register P (R37): seven stored bits. Bit 5 of the packed byte is not stored (R39). -/
structure Flags where
  c : Bool
  z : Bool
  i : Bool
  d : Bool
  b : Bool
  v : Bool
  n : Bool
  deriving DecidableEq, Repr

/-- Data memory M (R44, R61): the listed cells, each an index below MEM_SIZE with its byte. The canonical form is
`Memory.wf` (Machine/Ops.lean). -/
abbrev Memory := List Host.Cell

/-- ENG (R45). -/
inductive Engine where
  | ready
  | halted
  deriving DecidableEq, Repr

/-- An error value (R500), with the information it records. Its cause code is `errorCode` (Machine/Ops.lean). -/
inductive ErrorRecord where
  | unknownOpcode (opc : Byte) (offset : Addr)
  | truncatedOperand (offset : Addr)
  | outOfBoundsAddress (addr : Addr)
  deriving DecidableEq, Repr

/-- A normal stop (R46, R507). -/
inductive StopRecord where
  | endOfStream
  | haltOpcode (opc : Byte) (offset : Addr)
  deriving DecidableEq, Repr

/-- The state of the block (R49), with the session's fixed inputs. -/
structure State where
  a       : Byte
  x       : Byte
  y       : Byte
  sp      : Byte
  pc      : Addr
  p       : Flags
  mem     : Memory
  eng     : Engine
  fault   : Option ErrorRecord
  stop    : Option StopRecord
  refused : Bool
  cfg     : Config
  code    : List Byte
  deriving DecidableEq, Repr

/-- The launch inputs of a session (R10, second sub-list). CODE_LEN is the length of `code`. The five reset values are
draws: nothing restricts them. -/
structure Launch where
  code    : List Byte
  start   : Addr
  memInit : Memory
  resetA  : Byte
  resetX  : Byte
  resetY  : Byte
  resetSP : Byte
  resetP  : Byte
  deriving DecidableEq, Repr

/-- Session creation (R600 to R603), for any configuration and any launch inputs. -/
def State.create (cfg : Config) (l : Launch) : State where
  a := l.resetA
  x := l.resetX
  y := l.resetY
  sp := l.resetSP
  pc := l.start
  p := { c := l.resetP.getLsbD 0, z := l.resetP.getLsbD 1, i := l.resetP.getLsbD 2, d := l.resetP.getLsbD 3,
         b := l.resetP.getLsbD 4, v := l.resetP.getLsbD 6, n := l.resetP.getLsbD 7 }
  mem := l.memInit
  eng := .ready
  fault := none
  stop := none
  refused := false
  cfg := cfg
  code := l.code

/-- The launch inputs `State.reset` takes, all of them DESIGN CHOICE (notes/assumptions/2.md, 3.md, 4.md): the spec gives
the draws and launch inputs no value. -/
def Launch.zero : Launch where
  code := []
  start := 0x0000
  memInit := []
  resetA := 0x00
  resetX := 0x00
  resetY := 0x00
  resetSP := 0x00
  resetP := 0x00

/-- The state right after reset: a session created with the standard configuration (notes/assumptions/5.md) and with
`Launch.zero`. -/
def State.reset : State := State.create Config.standard Launch.zero

/-- Why no step is enabled. `step` raises each of them, only from Halted (R45); an error outcome itself is a next state that
records FAULT and halts (R506; notes/assumptions/6.md). All are safe: the model has no run beyond Halted. -/
inductive Fault where
  /-- Raised by `step` when ENG = Halted with an error recorded in FAULT. Safe: the spec enables no step (R45, R506). -/
  | haltedOnError (e : ErrorRecord)
  /-- Raised by `step` when ENG = Halted with a normal stop recorded in STOP. Safe: the spec enables no step (R45, R507). -/
  | haltedOnStop (r : StopRecord)
  /-- Raised by `step` when ENG = Halted and nothing is recorded. Safe: no created session reaches such a state. -/
  | haltedUnrecorded
  deriving DecidableEq, Repr

/-- Why the model gives a step no meaning. -/
inductive Refusal where
  /-- Raised by an arm of `exec` for an instruction without a meaning yet; no arm does. Safe: the model stops. -/
  | notModelled (mnemonic : String)
  /-- Raised by `step` when ENG = Halted with REFUSED set (R508), whose only reason is decimal arithmetic (R283). Safe: the
  model stops. -/
  | decimalArithmetic
  deriving DecidableEq, Repr

/-- The outcome of a step of this machine. -/
abbrev StepOutcome := Host.Outcome State Fault Refusal

end Sys2Proof.Machine
end

