-- ==== Sys2Proof/Machine/Flags.lean ====
section
/-! DEFINITION. Every flag computation the spec gives, as functions of the flags and of the bytes involved: SetNZ, the packed
byte of P, Compare, AddCore, BIT, and the shifts and rotates with their carry. -/

namespace Sys2Proof.Machine

/-- The byte 0x01 or 0x00 of a bit. -/
def bitByte (b : Bool) : Byte := if b then 0x01 else 0x00

/-- `SetNZ(v)` (R16, R38). -/
def Flags.setNZ (p : Flags) (v : Byte) : Flags := { p with z := v == 0x00, n := v.msb }

/-- `PackP(b)` (R39): N V 1 b D I Z C from bit 7 down to bit 0. -/
def packP (p : Flags) (b : Bool) : Byte :=
  BitVec.ofBool p.n ++ BitVec.ofBool p.v ++ 1#1 ++ BitVec.ofBool b ++
  BitVec.ofBool p.d ++ BitVec.ofBool p.i ++ BitVec.ofBool p.z ++ BitVec.ofBool p.c

/-- `UnpackP(v)` (R39): bits 5 and 4 are ignored and P.B is unchanged. -/
def unpackP (p : Flags) (v : Byte) : Flags :=
  { p with n := v.getLsbD 7, v := v.getLsbD 6, d := v.getLsbD 3, i := v.getLsbD 2, z := v.getLsbD 1, c := v.getLsbD 0 }

/-- The flags of `Compare(r, m)` (R240). -/
def compareFlags (p : Flags) (r m : Byte) : Flags :=
  { p with c := decide (m.toNat ≤ r.toNat), z := r == m, n := (r - m).msb }

/-- The flags of BIT (R244): Z from `A & op`, N and V from bits 7 and 6 of the operand. -/
def bitFlags (p : Flags) (a op : Byte) : Flags :=
  { p with z := (a &&& op) == 0x00, n := op.getLsbD 7, v := op.getLsbD 6 }

/-- What `AddCore` returns (R280). -/
structure AddResult where
  res  : Byte
  cout : Bool
  vout : Bool
  deriving DecidableEq, Repr

/-- `AddCore(x, m, cin)` (R280): the sum as an integer, its low byte, the carry-out, and the overflow from bit patterns. -/
def addCore (x m : Byte) (cin : Bool) : AddResult :=
  let s := x.toNat + m.toNat + cin.toNat
  let res := BitVec.ofNat 8 s
  { res := res, cout := decide (256 ≤ s), vout := ((~~~(x ^^^ m)) &&& (x ^^^ res)).msb }

/-- A shifted or rotated byte and the bit that leaves it. -/
structure ShiftResult where
  res   : Byte
  carry : Bool
  deriving DecidableEq, Repr

/-- ASL of t (R301). The carry-in is not used. -/
def shiftASL (t : Byte) (_c : Bool) : ShiftResult := { res := t <<< 1, carry := t.getLsbD 7 }

/-- LSR of t (R302). The carry-in is not used. -/
def shiftLSR (t : Byte) (_c : Bool) : ShiftResult := { res := t >>> 1, carry := t.getLsbD 0 }

/-- ROL of t through the carry c (R303). -/
def shiftROL (t : Byte) (c : Bool) : ShiftResult := { res := (t <<< 1) ||| bitByte c, carry := t.getLsbD 7 }

/-- ROR of t through the carry c (R304). -/
def shiftROR (t : Byte) (c : Bool) : ShiftResult := { res := (t >>> 1) ||| (bitByte c <<< 7), carry := t.getLsbD 0 }

end Sys2Proof.Machine
end

