-- ==== Sys2Proof/Machine/Ops.lean ====
section
/-! DEFINITION. The named operations over registers, memory and the engine: the writes of State, data memory with Map,
MemRead and MemWrite, the stack primitives, trap entry and trap return, and the execute phase with its commit. -/

namespace Sys2Proof.Machine

/-! ## Register writes -/

def State.withA (s : State) (v : Byte) : State := { s with a := v }
def State.withX (s : State) (v : Byte) : State := { s with x := v }
def State.withY (s : State) (v : Byte) : State := { s with y := v }
def State.withSP (s : State) (v : Byte) : State := { s with sp := v }
def State.withPC (s : State) (v : Addr) : State := { s with pc := v }
def State.withP (s : State) (v : Flags) : State := { s with p := v }
def State.withMem (s : State) (m : Memory) : State := { s with mem := m }
/-- `SetNZ(v)` on the state (R16). -/
def State.setNZ (s : State) (v : Byte) : State := s.withP (s.p.setNZ v)
/-- `P.C <- b`. -/
def State.setC (s : State) (b : Bool) : State := s.withP { s.p with c := b }

/-! ## The engine's transitions into Halted -/

/-- An error outcome (R505, R506): FAULT is recorded, the engine halts, nothing else changes. -/
def State.haltOnError (s : State) (e : ErrorRecord) : State := { s with fault := some e, eng := .halted }
/-- A normal stop (R507): STOP is recorded, the engine halts, nothing else changes. -/
def State.haltOnStop (s : State) (r : StopRecord) : State := { s with stop := some r, eng := .halted }
/-- A refused step (R508): REFUSED is set, the engine halts, nothing else changes. -/
def State.haltOnRefusal (s : State) : State := { s with refused := true, eng := .halted }

/-- The cause code of an error kind (R500, D5). -/
def errorCode : ErrorRecord → Nat
  | .unknownOpcode _ _ => 1
  | .truncatedOperand _ => 2
  | .outOfBoundsAddress _ => 3

/-- What `step` answers from Halted, where no step is enabled (R45): the recorded reason, by name. -/
def haltedOutcome (s : State) : StepOutcome :=
  match s.fault with
  | some e => .fault (.haltedOnError e)
  | none =>
    if s.refused then .refused .decimalArithmetic
    else match s.stop with
      | some r => .fault (.haltedOnStop r)
      | none => .fault .haltedUnrecorded

/-! ## Staged execution -/

/-- How the execute phase ends early (R105): a raised error or a refusal. -/
inductive Abort where
  | raise (e : ErrorRecord)
  | refuse
  deriving DecidableEq, Repr

/-- A result of the execute phase's rule on the staged copy of the state. -/
abbrev Staged (α : Type) := Except Abort α

/-- The execute phase (R105): the rule runs on a copy whose PC is already `next`; its result is committed whole, or its copy
is dropped and only the engine's records change. -/
def execute (len : Nat) (rule : State → Staged State) (s : State) : StepOutcome :=
  match rule (s.withPC (s.pc + BitVec.ofNat 16 len)) with
  | .ok t => .next t
  | .error (.raise e) => .next (s.haltOnError e)
  | .error .refuse => .next s.haltOnRefusal

/-- The decimal refusal (R283): with DECIMAL_MODE = refuse and P.D = 1 the rule refuses. -/
def decimalCheck (s : State) : Staged Unit :=
  if s.cfg.decimalMode = .refuse ∧ s.p.d = true then .error .refuse else .ok ()

/-! ## Data memory -/

/-- What an index that is not listed reads as (notes/assumptions/4.md). -/
def Memory.unlisted : Byte := 0x00

/-- The canonical form: indices strictly rising, and no listed byte equal to what an unlisted index reads as. -/
abbrev Memory.wf (m : Memory) : Prop :=
  m.Pairwise (fun c d => c.1 < d.1) ∧ ∀ c ∈ m, c.2 ≠ Memory.unlisted

/-- The byte at an index of M. -/
def Memory.get : Memory → Nat → Byte
  | [], _ => Memory.unlisted
  | (k, v) :: m, i => if k = i then v else Memory.get m i

/-- The cell to list for a byte at an index: none where the byte is what an unlisted index reads as. -/
def Memory.cell (i : Nat) (v : Byte) : Memory := if v = Memory.unlisted then [] else [(i, v)]

/-- `M[i] <- v`, keeping the canonical form. -/
def Memory.set : Memory → Nat → Byte → Memory
  | [], i, v => Memory.cell i v
  | (k, w) :: m, i, v =>
    if i < k then Memory.cell i v ++ (k, w) :: m
    else if i = k then Memory.cell i v ++ m
    else (k, w) :: Memory.set m i v

/-- `Map(addr)` (R64): an index of M, or OutOfBoundsAddress. -/
def mapAddr (cfg : Config) (addr : Addr) : Staged Nat :=
  if addr.toNat < cfg.memSize.bytes then .ok addr.toNat
  else match cfg.oobPolicy with
    | .wrap => .ok (addr.toNat % cfg.memSize.bytes)
    | .error => .error (.raise (.outOfBoundsAddress addr))

/-- `MemRead(addr, 1)` (R65). -/
def memRead (s : State) (addr : Addr) : Staged Byte := do
  let i ← mapAddr s.cfg addr
  return s.mem.get i

/-- `MemWrite(addr, 1, v)` (R66). -/
def memWrite (s : State) (addr : Addr) (v : Byte) : Staged State := do
  let i ← mapAddr s.cfg addr
  return s.withMem (s.mem.set i v)

/-- The zero-page address of a byte (R114). -/
def zeroPage (b : Byte) : Addr := b.setWidth 16

/-- `Read16ZP(p)` (R16): a pointer read that wraps within page 0, low byte first (R69). -/
def read16ZP (s : State) (p : Byte) : Staged Addr := do
  let lo ← memRead s (zeroPage p)
  let hi ← memRead s (zeroPage (p + 1))
  return hiLo hi lo

/-- The pointer read of JMP indirect (R122, R341): the high byte comes from the pointer's own page. -/
def read16SamePage (s : State) (ptr : Addr) : Staged Addr := do
  let lo ← memRead s ptr
  let hi ← memRead s ((ptr &&& 0xFF00) ||| ((ptr + 1) &&& 0x00FF))
  return hiLo hi lo

/-! ## The stack (R36) -/

/-- The data address 0x0100 + SP that a stack offset designates (R36). -/
def stackAddr (sp : Byte) : Addr := 0x0100 + sp.setWidth 16

/-- `Push(v)` (R370): write at 0x0100 + SP, then decrement SP. -/
def push (s : State) (v : Byte) : Staged State := do
  let t ← memWrite s (stackAddr s.sp) v
  return t.withSP (t.sp - 1)

/-- `Pull()` (R371): increment SP, then read at 0x0100 + SP. It returns the byte and the state with the new SP. -/
def pull (s : State) : Staged (Byte × State) := do
  let t := s.withSP (s.sp + 1)
  let v ← memRead t (stackAddr t.sp)
  return (v, t)

/-- Push a 16-bit return address, high byte first (R342, R346). -/
def pushAddr (s : State) (w : Addr) : Staged State := do
  let t ← push s (hi8 w)
  push t (lo8 w)

/-- Pull a 16-bit address, low byte first (R343, R347). -/
def pullAddr (s : State) : Staged (Addr × State) := do
  let (lo, t) ← pull s
  let (hi, u) ← pull t
  return (hiLo hi lo, u)

/-! ## Trap entry and trap return (R511, R512) -/

/-- Trap entry (R346, R511): save the return address and `PackP(1)` on the stack, set P.I, and take PC from the vector at
0xFFFE/0xFFFF. The vector read sees the bytes just pushed (R18, D12). -/
def takeTrap (ret : Addr) (s : State) : Staged State := do
  let t ← pushAddr s ret
  let u ← push t (packP t.p true)
  let w := u.withP { u.p with i := true }
  let lo ← memRead w 0xFFFE
  let hi ← memRead w 0xFFFF
  return w.withPC (hiLo hi lo)

/-- Trap return (R347, R512): restore the status from the pulled byte and PC from the pulled address. -/
def returnFromTrap (s : State) : Staged State := do
  let (v, t) ← pull s
  let (target, u) ← pullAddr (t.withP (unpackP t.p v))
  return u.withPC target

end Sys2Proof.Machine
end

