-- ==== Sys2Proof/Machine/Operands.lean ====
section
/-! DEFINITION. The address resolver (R110 to R122): every operand form, and how an instruction reads, writes or modifies
its operand. -/

namespace Sys2Proof.Machine

/-- `EA`, the effective address of a memory mode (R114 to R120). The resolver reads X and Y as they stand (R110). -/
def effAddr (m : MemMode) (s : State) : Staged Addr :=
  match m with
  | .zp b => .ok (zeroPage b)
  | .zpX b => .ok (zeroPage (b + s.x))
  | .zpY b => .ok (zeroPage (b + s.y))
  | .abs w => .ok w
  | .absX w => .ok (w + s.x.setWidth 16)
  | .absY w => .ok (w + s.y.setWidth 16)
  | .indX b => read16ZP s (b + s.x)
  | .indY b => do
    let base ← read16ZP s b
    return base + s.y.setWidth 16

/-- `op`, the value of a reading instruction's operand (R17, R110). -/
def readSource (src : Source) (s : State) : Staged Byte :=
  match src with
  | .imm v => .ok v
  | .mem m => do
    let ea ← effAddr m s
    memRead s ea

/-- `MemWrite(EA, 1, v)` (R203 to R205): the store of a storing instruction. It does not read EA. -/
def storeTo (m : MemMode) (v : Byte) (s : State) : Staged State := do
  let ea ← effAddr m s
  memWrite s ea v

/-- Read-modify-write at EA (R72, R300): it returns the byte read and the state with `f` of it written back. -/
def modifyAt (m : MemMode) (f : Byte → Byte) (s : State) : Staged (Byte × State) := do
  let ea ← effAddr m s
  let t ← memRead s ea
  let u ← memWrite s ea (f t)
  return (t, u)

/-- The target of a relative branch (R121), from the address of the next instruction. -/
def branchTarget (next : Addr) (off : Byte) : Addr := next + off.signExtend 16

end Sys2Proof.Machine
end

