-- ==== Sys2Proof/Machine/AddSub.lean ====
section
/-! DEFINITION. Addition and subtraction (R280 to R284, 44_add_sub.md). The decimal check comes before the operand read (R509).
First the effect of each instruction on the staged state, then one meaning for each opcode. -/

namespace Sys2Proof.Machine

/-- `A <- r; P.C <- c; P.V <- v; SetNZ(A)` with `(r, c, v) = AddCore(A, m, P.C)` (R281). -/
def accumulate (s : State) (m : Byte) : State :=
  let r := addCore s.a m s.p.c
  (s.withP { s.p with c := r.cout, v := r.vout }).withA r.res |>.setNZ r.res

/-- ADC (R281). -/
def addToA (src : Source) (s : State) : Staged State := do
  decimalCheck s
  let op ← readSource src s
  return accumulate s op

/-- SBC (R282): AddCore with the complement of the operand. -/
def subFromA (src : Source) (s : State) : Staged State := do
  decimalCheck s
  let op ← readSource src s
  return accumulate s (op ^^^ 0xFF)

/-! ## One meaning for each opcode -/

/-- 0x61 ADC (zp,X) (R281). -/
def execAdcIndX (zp : Byte) (s : State) : StepOutcome := execute 2 (addToA (.mem (.indX zp))) s

/-- 0x65 ADC zp (R281). -/
def execAdcZp (zp : Byte) (s : State) : StepOutcome := execute 2 (addToA (.mem (.zp zp))) s

/-- 0x69 ADC # (R281). -/
def execAdcImm (imm : Byte) (s : State) : StepOutcome := execute 2 (addToA (.imm imm)) s

/-- 0x6D ADC abs (R281). -/
def execAdcAbs (addr : Addr) (s : State) : StepOutcome := execute 3 (addToA (.mem (.abs addr))) s

/-- 0x71 ADC (zp),Y (R281). -/
def execAdcIndY (zp : Byte) (s : State) : StepOutcome := execute 2 (addToA (.mem (.indY zp))) s

/-- 0x75 ADC zp,X (R281). -/
def execAdcZpX (zp : Byte) (s : State) : StepOutcome := execute 2 (addToA (.mem (.zpX zp))) s

/-- 0x79 ADC abs,Y (R281). -/
def execAdcAbsY (addr : Addr) (s : State) : StepOutcome := execute 3 (addToA (.mem (.absY addr))) s

/-- 0x7D ADC abs,X (R281). -/
def execAdcAbsX (addr : Addr) (s : State) : StepOutcome := execute 3 (addToA (.mem (.absX addr))) s

/-- 0xE1 SBC (zp,X) (R282). -/
def execSbcIndX (zp : Byte) (s : State) : StepOutcome := execute 2 (subFromA (.mem (.indX zp))) s

/-- 0xE5 SBC zp (R282). -/
def execSbcZp (zp : Byte) (s : State) : StepOutcome := execute 2 (subFromA (.mem (.zp zp))) s

/-- 0xE9 SBC # (R282). -/
def execSbcImm (imm : Byte) (s : State) : StepOutcome := execute 2 (subFromA (.imm imm)) s

/-- 0xED SBC abs (R282). -/
def execSbcAbs (addr : Addr) (s : State) : StepOutcome := execute 3 (subFromA (.mem (.abs addr))) s

/-- 0xF1 SBC (zp),Y (R282). -/
def execSbcIndY (zp : Byte) (s : State) : StepOutcome := execute 2 (subFromA (.mem (.indY zp))) s

/-- 0xF5 SBC zp,X (R282). -/
def execSbcZpX (zp : Byte) (s : State) : StepOutcome := execute 2 (subFromA (.mem (.zpX zp))) s

/-- 0xF9 SBC abs,Y (R282). -/
def execSbcAbsY (addr : Addr) (s : State) : StepOutcome := execute 3 (subFromA (.mem (.absY addr))) s

/-- 0xFD SBC abs,X (R282). -/
def execSbcAbsX (addr : Addr) (s : State) : StepOutcome := execute 3 (subFromA (.mem (.absX addr))) s

end Sys2Proof.Machine
end

