-- ==== Sys2Proof/Machine/Branch.lean ====
section
/-! DEFINITION. Conditional branches (R320 to R328, 46_branch.md).
First the effect of each instruction on the staged state, then one meaning for each opcode. -/

namespace Sys2Proof.Machine

/-- `Branch(cond)` (R320). The staged PC is already the address of the next instruction (R105). -/
def branch (cond : Bool) (off : Byte) (s : State) : Staged State :=
  .ok (if cond then s.withPC (branchTarget s.pc off) else s)

/-! ## One meaning for each opcode -/

/-- 0x10 BPL rel (R321). -/
def execBpl (off : Byte) (s : State) : StepOutcome := execute 2 (branch (!s.p.n) off) s

/-- 0x30 BMI rel (R322). -/
def execBmi (off : Byte) (s : State) : StepOutcome := execute 2 (branch (s.p.n) off) s

/-- 0x50 BVC rel (R323). -/
def execBvc (off : Byte) (s : State) : StepOutcome := execute 2 (branch (!s.p.v) off) s

/-- 0x70 BVS rel (R324). -/
def execBvs (off : Byte) (s : State) : StepOutcome := execute 2 (branch (s.p.v) off) s

/-- 0x90 BCC rel (R325). -/
def execBcc (off : Byte) (s : State) : StepOutcome := execute 2 (branch (!s.p.c) off) s

/-- 0xB0 BCS rel (R326). -/
def execBcs (off : Byte) (s : State) : StepOutcome := execute 2 (branch (s.p.c) off) s

/-- 0xD0 BNE rel (R327). -/
def execBne (off : Byte) (s : State) : StepOutcome := execute 2 (branch (!s.p.z) off) s

/-- 0xF0 BEQ rel (R328). -/
def execBeq (off : Byte) (s : State) : StepOutcome := execute 2 (branch (s.p.z) off) s

end Sys2Proof.Machine
end

