-- ==== Sys2Proof/Machine/Stack.lean ====
section
/-! DEFINITION. Stack, register transfer, flag and no-operation instructions (R370 to R397, 48_stack_transfer_flag.md).
First the effect of each instruction on the staged state, then one meaning for each opcode. -/

namespace Sys2Proof.Machine

/-- PHA (R372). -/
def pushA (s : State) : Staged State := push s s.a

/-- PHP (R373): bits 4 and 5 of the pushed byte are 1. -/
def pushP (s : State) : Staged State := push s (packP s.p true)

/-- PLA (R374). -/
def pullA (s : State) : Staged State := do
  let (v, t) ← pull s
  return (t.withA v).setNZ v

/-- PLP (R375). -/
def pullP (s : State) : Staged State := do
  let (v, t) ← pull s
  return t.withP (unpackP t.p v)

/-- TAX (R380). -/
def transferAX (s : State) : Staged State := .ok ((s.withX s.a).setNZ s.a)

/-- TAY (R381). -/
def transferAY (s : State) : Staged State := .ok ((s.withY s.a).setNZ s.a)

/-- TXA (R382). -/
def transferXA (s : State) : Staged State := .ok ((s.withA s.x).setNZ s.x)

/-- TYA (R383). -/
def transferYA (s : State) : Staged State := .ok ((s.withA s.y).setNZ s.y)

/-- TSX (R384). -/
def transferSX (s : State) : Staged State := .ok ((s.withX s.sp).setNZ s.sp)

/-- TXS (R385): no flag is written. -/
def transferXS (s : State) : Staged State := .ok (s.withSP s.x)

/-- CLC (R390). -/
def clearC (s : State) : Staged State := .ok (s.withP { s.p with c := false })

/-- SEC (R391). -/
def setCarry (s : State) : Staged State := .ok (s.withP { s.p with c := true })

/-- CLI (R392). -/
def clearI (s : State) : Staged State := .ok (s.withP { s.p with i := false })

/-- SEI (R393). -/
def setI (s : State) : Staged State := .ok (s.withP { s.p with i := true })

/-- CLD (R394). -/
def clearD (s : State) : Staged State := .ok (s.withP { s.p with d := false })

/-- SED (R395). -/
def setD (s : State) : Staged State := .ok (s.withP { s.p with d := true })

/-- CLV (R396). -/
def clearV (s : State) : Staged State := .ok (s.withP { s.p with v := false })

/-- NOP and the 27 undocumented NOPs (R397, R410): no effect beyond the advance of PC, and no memory access. -/
def noOperation (s : State) : Staged State := .ok s

/-! ## One meaning for each opcode -/

/-- 0x48 PHA (R372). -/
def execPha (s : State) : StepOutcome := execute 1 pushA s

/-- 0x08 PHP (R373). -/
def execPhp (s : State) : StepOutcome := execute 1 pushP s

/-- 0x68 PLA (R374). -/
def execPla (s : State) : StepOutcome := execute 1 pullA s

/-- 0x28 PLP (R375). -/
def execPlp (s : State) : StepOutcome := execute 1 pullP s

/-- 0xAA TAX (R380). -/
def execTax (s : State) : StepOutcome := execute 1 transferAX s

/-- 0xA8 TAY (R381). -/
def execTay (s : State) : StepOutcome := execute 1 transferAY s

/-- 0x8A TXA (R382). -/
def execTxa (s : State) : StepOutcome := execute 1 transferXA s

/-- 0x98 TYA (R383). -/
def execTya (s : State) : StepOutcome := execute 1 transferYA s

/-- 0xBA TSX (R384). -/
def execTsx (s : State) : StepOutcome := execute 1 transferSX s

/-- 0x9A TXS (R385). -/
def execTxs (s : State) : StepOutcome := execute 1 transferXS s

/-- 0x18 CLC (R390). -/
def execClc (s : State) : StepOutcome := execute 1 clearC s

/-- 0x38 SEC (R391). -/
def execSec (s : State) : StepOutcome := execute 1 setCarry s

/-- 0x58 CLI (R392). -/
def execCli (s : State) : StepOutcome := execute 1 clearI s

/-- 0x78 SEI (R393). -/
def execSei (s : State) : StepOutcome := execute 1 setI s

/-- 0xD8 CLD (R394). -/
def execCld (s : State) : StepOutcome := execute 1 clearD s

/-- 0xF8 SED (R395). -/
def execSed (s : State) : StepOutcome := execute 1 setD s

/-- 0xB8 CLV (R396). -/
def execClv (s : State) : StepOutcome := execute 1 clearV s

/-- 0xEA NOP (R397). -/
def execNop (s : State) : StepOutcome := execute 1 noOperation s

end Sys2Proof.Machine
end

