-- ==== Sys2Proof/Machine/Combined.lean ====
section
/-! DEFINITION. Combined and undocumented instructions (R400 to R410, 49_combined_undocumented.md). The memory write comes before the
accumulator operation, and a flag a later sub-step writes overrides an earlier value (R400).
First the effect of each instruction on the staged state, then one meaning for each opcode. -/

namespace Sys2Proof.Machine

/-- SLO (R401): shift left, then OR into A. -/
def shiftLeftOr (m : MemMode) (s : State) : Staged State := do
  let (t, u) ← modifyAt m (fun t => (shiftASL t s.p.c).res) s
  let r := shiftASL t s.p.c
  return ((u.setC r.carry).withA (s.a ||| r.res)).setNZ (s.a ||| r.res)

/-- RLA (R402): rotate left, then AND into A. -/
def rotateLeftAnd (m : MemMode) (s : State) : Staged State := do
  let (t, u) ← modifyAt m (fun t => (shiftROL t s.p.c).res) s
  let r := shiftROL t s.p.c
  return ((u.setC r.carry).withA (s.a &&& r.res)).setNZ (s.a &&& r.res)

/-- SRE (R403): shift right, then EOR into A. -/
def shiftRightEor (m : MemMode) (s : State) : Staged State := do
  let (t, u) ← modifyAt m (fun t => (shiftLSR t s.p.c).res) s
  let r := shiftLSR t s.p.c
  return ((u.setC r.carry).withA (s.a ^^^ r.res)).setNZ (s.a ^^^ r.res)

/-- RRA (R404): rotate right, then ADC with the rotate's carry-out as carry-in. -/
def rotateRightAdd (m : MemMode) (s : State) : Staged State := do
  decimalCheck s
  let (t, u) ← modifyAt m (fun t => (shiftROR t s.p.c).res) s
  let r := shiftROR t s.p.c
  return accumulate (u.setC r.carry) r.res

/-- DCP (R405): decrement memory, then compare with A. -/
def decCompare (m : MemMode) (s : State) : Staged State := do
  let (t, u) ← modifyAt m (· - 1) s
  return u.withP (compareFlags u.p u.a (t - 1))

/-- ISB (R406): increment memory, then SBC. -/
def incSub (m : MemMode) (s : State) : Staged State := do
  decimalCheck s
  let (t, u) ← modifyAt m (· + 1) s
  return accumulate u ((t + 1) ^^^ 0xFF)

/-- LAX (R407): load A and X with the same byte. -/
def loadAX (m : MemMode) (s : State) : Staged State := do
  let op ← readSource (.mem m) s
  return ((s.withA op).withX op).setNZ op

/-- SAX (R408): store A AND X; no flag is written. -/
def storeAandX (m : MemMode) (s : State) : Staged State := storeTo m (s.a &&& s.x) s

/-! ## One meaning for each opcode -/

/-- 0x03 *SLO (zp,X) (R401). -/
def execSloIndX (zp : Byte) (s : State) : StepOutcome := execute 2 (shiftLeftOr (.indX zp)) s

/-- 0x07 *SLO zp (R401). -/
def execSloZp (zp : Byte) (s : State) : StepOutcome := execute 2 (shiftLeftOr (.zp zp)) s

/-- 0x0F *SLO abs (R401). -/
def execSloAbs (addr : Addr) (s : State) : StepOutcome := execute 3 (shiftLeftOr (.abs addr)) s

/-- 0x13 *SLO (zp),Y (R401). -/
def execSloIndY (zp : Byte) (s : State) : StepOutcome := execute 2 (shiftLeftOr (.indY zp)) s

/-- 0x17 *SLO zp,X (R401). -/
def execSloZpX (zp : Byte) (s : State) : StepOutcome := execute 2 (shiftLeftOr (.zpX zp)) s

/-- 0x1B *SLO abs,Y (R401). -/
def execSloAbsY (addr : Addr) (s : State) : StepOutcome := execute 3 (shiftLeftOr (.absY addr)) s

/-- 0x1F *SLO abs,X (R401). -/
def execSloAbsX (addr : Addr) (s : State) : StepOutcome := execute 3 (shiftLeftOr (.absX addr)) s

/-- 0x23 *RLA (zp,X) (R402). -/
def execRlaIndX (zp : Byte) (s : State) : StepOutcome := execute 2 (rotateLeftAnd (.indX zp)) s

/-- 0x27 *RLA zp (R402). -/
def execRlaZp (zp : Byte) (s : State) : StepOutcome := execute 2 (rotateLeftAnd (.zp zp)) s

/-- 0x2F *RLA abs (R402). -/
def execRlaAbs (addr : Addr) (s : State) : StepOutcome := execute 3 (rotateLeftAnd (.abs addr)) s

/-- 0x33 *RLA (zp),Y (R402). -/
def execRlaIndY (zp : Byte) (s : State) : StepOutcome := execute 2 (rotateLeftAnd (.indY zp)) s

/-- 0x37 *RLA zp,X (R402). -/
def execRlaZpX (zp : Byte) (s : State) : StepOutcome := execute 2 (rotateLeftAnd (.zpX zp)) s

/-- 0x3B *RLA abs,Y (R402). -/
def execRlaAbsY (addr : Addr) (s : State) : StepOutcome := execute 3 (rotateLeftAnd (.absY addr)) s

/-- 0x3F *RLA abs,X (R402). -/
def execRlaAbsX (addr : Addr) (s : State) : StepOutcome := execute 3 (rotateLeftAnd (.absX addr)) s

/-- 0x43 *SRE (zp,X) (R403). -/
def execSreIndX (zp : Byte) (s : State) : StepOutcome := execute 2 (shiftRightEor (.indX zp)) s

/-- 0x47 *SRE zp (R403). -/
def execSreZp (zp : Byte) (s : State) : StepOutcome := execute 2 (shiftRightEor (.zp zp)) s

/-- 0x4F *SRE abs (R403). -/
def execSreAbs (addr : Addr) (s : State) : StepOutcome := execute 3 (shiftRightEor (.abs addr)) s

/-- 0x53 *SRE (zp),Y (R403). -/
def execSreIndY (zp : Byte) (s : State) : StepOutcome := execute 2 (shiftRightEor (.indY zp)) s

/-- 0x57 *SRE zp,X (R403). -/
def execSreZpX (zp : Byte) (s : State) : StepOutcome := execute 2 (shiftRightEor (.zpX zp)) s

/-- 0x5B *SRE abs,Y (R403). -/
def execSreAbsY (addr : Addr) (s : State) : StepOutcome := execute 3 (shiftRightEor (.absY addr)) s

/-- 0x5F *SRE abs,X (R403). -/
def execSreAbsX (addr : Addr) (s : State) : StepOutcome := execute 3 (shiftRightEor (.absX addr)) s

/-- 0x63 *RRA (zp,X) (R404). -/
def execRraIndX (zp : Byte) (s : State) : StepOutcome := execute 2 (rotateRightAdd (.indX zp)) s

/-- 0x67 *RRA zp (R404). -/
def execRraZp (zp : Byte) (s : State) : StepOutcome := execute 2 (rotateRightAdd (.zp zp)) s

/-- 0x6F *RRA abs (R404). -/
def execRraAbs (addr : Addr) (s : State) : StepOutcome := execute 3 (rotateRightAdd (.abs addr)) s

/-- 0x73 *RRA (zp),Y (R404). -/
def execRraIndY (zp : Byte) (s : State) : StepOutcome := execute 2 (rotateRightAdd (.indY zp)) s

/-- 0x77 *RRA zp,X (R404). -/
def execRraZpX (zp : Byte) (s : State) : StepOutcome := execute 2 (rotateRightAdd (.zpX zp)) s

/-- 0x7B *RRA abs,Y (R404). -/
def execRraAbsY (addr : Addr) (s : State) : StepOutcome := execute 3 (rotateRightAdd (.absY addr)) s

/-- 0x7F *RRA abs,X (R404). -/
def execRraAbsX (addr : Addr) (s : State) : StepOutcome := execute 3 (rotateRightAdd (.absX addr)) s

/-- 0xC3 *DCP (zp,X) (R405). -/
def execDcpIndX (zp : Byte) (s : State) : StepOutcome := execute 2 (decCompare (.indX zp)) s

/-- 0xC7 *DCP zp (R405). -/
def execDcpZp (zp : Byte) (s : State) : StepOutcome := execute 2 (decCompare (.zp zp)) s

/-- 0xCF *DCP abs (R405). -/
def execDcpAbs (addr : Addr) (s : State) : StepOutcome := execute 3 (decCompare (.abs addr)) s

/-- 0xD3 *DCP (zp),Y (R405). -/
def execDcpIndY (zp : Byte) (s : State) : StepOutcome := execute 2 (decCompare (.indY zp)) s

/-- 0xD7 *DCP zp,X (R405). -/
def execDcpZpX (zp : Byte) (s : State) : StepOutcome := execute 2 (decCompare (.zpX zp)) s

/-- 0xDB *DCP abs,Y (R405). -/
def execDcpAbsY (addr : Addr) (s : State) : StepOutcome := execute 3 (decCompare (.absY addr)) s

/-- 0xDF *DCP abs,X (R405). -/
def execDcpAbsX (addr : Addr) (s : State) : StepOutcome := execute 3 (decCompare (.absX addr)) s

/-- 0xE3 *ISB (zp,X) (R406). -/
def execIsbIndX (zp : Byte) (s : State) : StepOutcome := execute 2 (incSub (.indX zp)) s

/-- 0xE7 *ISB zp (R406). -/
def execIsbZp (zp : Byte) (s : State) : StepOutcome := execute 2 (incSub (.zp zp)) s

/-- 0xEF *ISB abs (R406). -/
def execIsbAbs (addr : Addr) (s : State) : StepOutcome := execute 3 (incSub (.abs addr)) s

/-- 0xF3 *ISB (zp),Y (R406). -/
def execIsbIndY (zp : Byte) (s : State) : StepOutcome := execute 2 (incSub (.indY zp)) s

/-- 0xF7 *ISB zp,X (R406). -/
def execIsbZpX (zp : Byte) (s : State) : StepOutcome := execute 2 (incSub (.zpX zp)) s

/-- 0xFB *ISB abs,Y (R406). -/
def execIsbAbsY (addr : Addr) (s : State) : StepOutcome := execute 3 (incSub (.absY addr)) s

/-- 0xFF *ISB abs,X (R406). -/
def execIsbAbsX (addr : Addr) (s : State) : StepOutcome := execute 3 (incSub (.absX addr)) s

/-- 0xA3 *LAX (zp,X) (R407). -/
def execLaxIndX (zp : Byte) (s : State) : StepOutcome := execute 2 (loadAX (.indX zp)) s

/-- 0xA7 *LAX zp (R407). -/
def execLaxZp (zp : Byte) (s : State) : StepOutcome := execute 2 (loadAX (.zp zp)) s

/-- 0xAF *LAX abs (R407). -/
def execLaxAbs (addr : Addr) (s : State) : StepOutcome := execute 3 (loadAX (.abs addr)) s

/-- 0xB3 *LAX (zp),Y (R407). -/
def execLaxIndY (zp : Byte) (s : State) : StepOutcome := execute 2 (loadAX (.indY zp)) s

/-- 0xB7 *LAX zp,Y (R407). -/
def execLaxZpY (zp : Byte) (s : State) : StepOutcome := execute 2 (loadAX (.zpY zp)) s

/-- 0xBF *LAX abs,Y (R407). -/
def execLaxAbsY (addr : Addr) (s : State) : StepOutcome := execute 3 (loadAX (.absY addr)) s

/-- 0x83 *SAX (zp,X) (R408). -/
def execSaxIndX (zp : Byte) (s : State) : StepOutcome := execute 2 (storeAandX (.indX zp)) s

/-- 0x87 *SAX zp (R408). -/
def execSaxZp (zp : Byte) (s : State) : StepOutcome := execute 2 (storeAandX (.zp zp)) s

/-- 0x8F *SAX abs (R408). -/
def execSaxAbs (addr : Addr) (s : State) : StepOutcome := execute 3 (storeAandX (.abs addr)) s

/-- 0x97 *SAX zp,Y (R408). -/
def execSaxZpY (zp : Byte) (s : State) : StepOutcome := execute 2 (storeAandX (.zpY zp)) s

/-- 0xEB *SBC # (R409). -/
def execSbcImmEB (imm : Byte) (s : State) : StepOutcome := execute 2 (subFromA (.imm imm)) s

/-- 0x04 *NOP zp (R410). -/
def execNopZp04 (_zp : Byte) (s : State) : StepOutcome := execute 2 noOperation s

/-- 0x0C *NOP abs (R410). -/
def execNopAbs0C (_addr : Addr) (s : State) : StepOutcome := execute 3 noOperation s

/-- 0x14 *NOP zp,X (R410). -/
def execNopZpX14 (_zp : Byte) (s : State) : StepOutcome := execute 2 noOperation s

/-- 0x1A *NOP (R410). -/
def execNopImp1A (s : State) : StepOutcome := execute 1 noOperation s

/-- 0x1C *NOP abs,X (R410). -/
def execNopAbsX1C (_addr : Addr) (s : State) : StepOutcome := execute 3 noOperation s

/-- 0x34 *NOP zp,X (R410). -/
def execNopZpX34 (_zp : Byte) (s : State) : StepOutcome := execute 2 noOperation s

/-- 0x3A *NOP (R410). -/
def execNopImp3A (s : State) : StepOutcome := execute 1 noOperation s

/-- 0x3C *NOP abs,X (R410). -/
def execNopAbsX3C (_addr : Addr) (s : State) : StepOutcome := execute 3 noOperation s

/-- 0x44 *NOP zp (R410). -/
def execNopZp44 (_zp : Byte) (s : State) : StepOutcome := execute 2 noOperation s

/-- 0x54 *NOP zp,X (R410). -/
def execNopZpX54 (_zp : Byte) (s : State) : StepOutcome := execute 2 noOperation s

/-- 0x5A *NOP (R410). -/
def execNopImp5A (s : State) : StepOutcome := execute 1 noOperation s

/-- 0x5C *NOP abs,X (R410). -/
def execNopAbsX5C (_addr : Addr) (s : State) : StepOutcome := execute 3 noOperation s

/-- 0x64 *NOP zp (R410). -/
def execNopZp64 (_zp : Byte) (s : State) : StepOutcome := execute 2 noOperation s

/-- 0x74 *NOP zp,X (R410). -/
def execNopZpX74 (_zp : Byte) (s : State) : StepOutcome := execute 2 noOperation s

/-- 0x7A *NOP (R410). -/
def execNopImp7A (s : State) : StepOutcome := execute 1 noOperation s

/-- 0x7C *NOP abs,X (R410). -/
def execNopAbsX7C (_addr : Addr) (s : State) : StepOutcome := execute 3 noOperation s

/-- 0x80 *NOP # (R410). -/
def execNopImm80 (_imm : Byte) (s : State) : StepOutcome := execute 2 noOperation s

/-- 0x82 *NOP # (R410). -/
def execNopImm82 (_imm : Byte) (s : State) : StepOutcome := execute 2 noOperation s

/-- 0x89 *NOP # (R410). -/
def execNopImm89 (_imm : Byte) (s : State) : StepOutcome := execute 2 noOperation s

/-- 0xC2 *NOP # (R410). -/
def execNopImmC2 (_imm : Byte) (s : State) : StepOutcome := execute 2 noOperation s

/-- 0xD4 *NOP zp,X (R410). -/
def execNopZpXD4 (_zp : Byte) (s : State) : StepOutcome := execute 2 noOperation s

/-- 0xDA *NOP (R410). -/
def execNopImpDA (s : State) : StepOutcome := execute 1 noOperation s

/-- 0xDC *NOP abs,X (R410). -/
def execNopAbsXDC (_addr : Addr) (s : State) : StepOutcome := execute 3 noOperation s

/-- 0xE2 *NOP # (R410). -/
def execNopImmE2 (_imm : Byte) (s : State) : StepOutcome := execute 2 noOperation s

/-- 0xF4 *NOP zp,X (R410). -/
def execNopZpXF4 (_zp : Byte) (s : State) : StepOutcome := execute 2 noOperation s

/-- 0xFA *NOP (R410). -/
def execNopImpFA (s : State) : StepOutcome := execute 1 noOperation s

/-- 0xFC *NOP abs,X (R410). -/
def execNopAbsXFC (_addr : Addr) (s : State) : StepOutcome := execute 3 noOperation s

end Sys2Proof.Machine
end

