-- ==== Sys2Proof/Machine/CompareBit.lean ====
section
/-! DEFINITION. Compare and bit-test instructions (R240 to R244, 42_compare_bit.md).
First the effect of each instruction on the staged state, then one meaning for each opcode. -/

namespace Sys2Proof.Machine

/-- CMP (R241): `Compare(A, op)`. -/
def compareA (src : Source) (s : State) : Staged State := do
  let op ← readSource src s
  return s.withP (compareFlags s.p s.a op)

/-- CPX (R242): `Compare(X, op)`. -/
def compareX (src : Source) (s : State) : Staged State := do
  let op ← readSource src s
  return s.withP (compareFlags s.p s.x op)

/-- CPY (R243): `Compare(Y, op)`. -/
def compareY (src : Source) (s : State) : Staged State := do
  let op ← readSource src s
  return s.withP (compareFlags s.p s.y op)

/-- BIT (R244): Z from `A & op`, N and V from the operand; A is unchanged. -/
def bitTest (m : MemMode) (s : State) : Staged State := do
  let op ← readSource (.mem m) s
  return s.withP (bitFlags s.p s.a op)

/-! ## One meaning for each opcode -/

/-- 0xC1 CMP (zp,X) (R241). -/
def execCmpIndX (zp : Byte) (s : State) : StepOutcome := execute 2 (compareA (.mem (.indX zp))) s

/-- 0xC5 CMP zp (R241). -/
def execCmpZp (zp : Byte) (s : State) : StepOutcome := execute 2 (compareA (.mem (.zp zp))) s

/-- 0xC9 CMP # (R241). -/
def execCmpImm (imm : Byte) (s : State) : StepOutcome := execute 2 (compareA (.imm imm)) s

/-- 0xCD CMP abs (R241). -/
def execCmpAbs (addr : Addr) (s : State) : StepOutcome := execute 3 (compareA (.mem (.abs addr))) s

/-- 0xD1 CMP (zp),Y (R241). -/
def execCmpIndY (zp : Byte) (s : State) : StepOutcome := execute 2 (compareA (.mem (.indY zp))) s

/-- 0xD5 CMP zp,X (R241). -/
def execCmpZpX (zp : Byte) (s : State) : StepOutcome := execute 2 (compareA (.mem (.zpX zp))) s

/-- 0xD9 CMP abs,Y (R241). -/
def execCmpAbsY (addr : Addr) (s : State) : StepOutcome := execute 3 (compareA (.mem (.absY addr))) s

/-- 0xDD CMP abs,X (R241). -/
def execCmpAbsX (addr : Addr) (s : State) : StepOutcome := execute 3 (compareA (.mem (.absX addr))) s

/-- 0xE0 CPX # (R242). -/
def execCpxImm (imm : Byte) (s : State) : StepOutcome := execute 2 (compareX (.imm imm)) s

/-- 0xE4 CPX zp (R242). -/
def execCpxZp (zp : Byte) (s : State) : StepOutcome := execute 2 (compareX (.mem (.zp zp))) s

/-- 0xEC CPX abs (R242). -/
def execCpxAbs (addr : Addr) (s : State) : StepOutcome := execute 3 (compareX (.mem (.abs addr))) s

/-- 0xC0 CPY # (R243). -/
def execCpyImm (imm : Byte) (s : State) : StepOutcome := execute 2 (compareY (.imm imm)) s

/-- 0xC4 CPY zp (R243). -/
def execCpyZp (zp : Byte) (s : State) : StepOutcome := execute 2 (compareY (.mem (.zp zp))) s

/-- 0xCC CPY abs (R243). -/
def execCpyAbs (addr : Addr) (s : State) : StepOutcome := execute 3 (compareY (.mem (.abs addr))) s

/-- 0x24 BIT zp (R244). -/
def execBitZp (zp : Byte) (s : State) : StepOutcome := execute 2 (bitTest (.zp zp)) s

/-- 0x2C BIT abs (R244). -/
def execBitAbs (addr : Addr) (s : State) : StepOutcome := execute 3 (bitTest (.abs addr)) s

end Sys2Proof.Machine
end

