-- ==== Sys2Proof/Machine/IncDec.lean ====
section
/-! DEFINITION. Increment and decrement instructions (R220 to R225, 41_inc_dec.md). They wrap modulo 256.
First the effect of each instruction on the staged state, then one meaning for each opcode. -/

namespace Sys2Proof.Machine

/-- INC (R220): read at EA, add 1, write back, SetNZ. -/
def incMem (m : MemMode) (s : State) : Staged State := do
  let (t, u) ← modifyAt m (· + 1) s
  return u.setNZ (t + 1)

/-- DEC (R221): read at EA, subtract 1, write back, SetNZ. -/
def decMem (m : MemMode) (s : State) : Staged State := do
  let (t, u) ← modifyAt m (· - 1) s
  return u.setNZ (t - 1)

/-- INX (R222). -/
def incX (s : State) : Staged State := .ok ((s.withX (s.x + 1)).setNZ (s.x + 1))

/-- INY (R223). -/
def incY (s : State) : Staged State := .ok ((s.withY (s.y + 1)).setNZ (s.y + 1))

/-- DEX (R224). -/
def decX (s : State) : Staged State := .ok ((s.withX (s.x - 1)).setNZ (s.x - 1))

/-- DEY (R225). -/
def decY (s : State) : Staged State := .ok ((s.withY (s.y - 1)).setNZ (s.y - 1))

/-! ## One meaning for each opcode -/

/-- 0xE6 INC zp (R220). -/
def execIncZp (zp : Byte) (s : State) : StepOutcome := execute 2 (incMem (.zp zp)) s

/-- 0xEE INC abs (R220). -/
def execIncAbs (addr : Addr) (s : State) : StepOutcome := execute 3 (incMem (.abs addr)) s

/-- 0xF6 INC zp,X (R220). -/
def execIncZpX (zp : Byte) (s : State) : StepOutcome := execute 2 (incMem (.zpX zp)) s

/-- 0xFE INC abs,X (R220). -/
def execIncAbsX (addr : Addr) (s : State) : StepOutcome := execute 3 (incMem (.absX addr)) s

/-- 0xC6 DEC zp (R221). -/
def execDecZp (zp : Byte) (s : State) : StepOutcome := execute 2 (decMem (.zp zp)) s

/-- 0xCE DEC abs (R221). -/
def execDecAbs (addr : Addr) (s : State) : StepOutcome := execute 3 (decMem (.abs addr)) s

/-- 0xD6 DEC zp,X (R221). -/
def execDecZpX (zp : Byte) (s : State) : StepOutcome := execute 2 (decMem (.zpX zp)) s

/-- 0xDE DEC abs,X (R221). -/
def execDecAbsX (addr : Addr) (s : State) : StepOutcome := execute 3 (decMem (.absX addr)) s

/-- 0xE8 INX (R222). -/
def execInx (s : State) : StepOutcome := execute 1 incX s

/-- 0xC8 INY (R223). -/
def execIny (s : State) : StepOutcome := execute 1 incY s

/-- 0xCA DEX (R224). -/
def execDex (s : State) : StepOutcome := execute 1 decX s

/-- 0x88 DEY (R225). -/
def execDey (s : State) : StepOutcome := execute 1 decY s

end Sys2Proof.Machine
end

