-- ==== Sys2Proof/Machine/Jump.lean ====
section
/-! DEFINITION. Jumps, subroutine call and return, break and return from interrupt (R340 to R347, 47_jump_call_return.md).
First the effect of each instruction on the staged state, then one meaning for each opcode. -/

namespace Sys2Proof.Machine

/-- JMP absolute (R340). -/
def jumpTo (target : Addr) (s : State) : Staged State := .ok (s.withPC target)

/-- JMP indirect (R341). -/
def jumpThrough (ptr : Addr) (s : State) : Staged State := do
  let target ← read16SamePage s ptr
  return s.withPC target

/-- JSR (R342). The pushed address is `next - 1`, and the staged PC is `next`. -/
def callSub (target : Addr) (s : State) : Staged State := do
  let t ← pushAddr s (s.pc - 1)
  return t.withPC target

/-- RTS (R343). -/
def returnFromSub (s : State) : Staged State := do
  let (w, t) ← pullAddr s
  return t.withPC (w + 1)

/-! ## One meaning for each opcode -/

/-- 0x4C JMP abs (R340). -/
def execJmpAbs (addr : Addr) (s : State) : StepOutcome := execute 3 (jumpTo addr) s

/-- 0x6C JMP (abs) (R341). -/
def execJmpInd (ptr : Addr) (s : State) : StepOutcome := execute 3 (jumpThrough ptr) s

/-- 0x20 JSR abs (R342). -/
def execJsrAbs (addr : Addr) (s : State) : StepOutcome := execute 3 (callSub addr) s

/-- 0x60 RTS (R343). -/
def execRts (s : State) : StepOutcome := execute 1 returnFromSub s

/-- 0x00 BRK (R346). -/
def execBrk (s : State) : StepOutcome := execute 1 (takeTrap (s.pc + 2)) s

/-- 0x40 RTI (R347). -/
def execRti (s : State) : StepOutcome := execute 1 returnFromTrap s

end Sys2Proof.Machine
end

