-- ==== Sys2Proof/Machine/LoadStore.lean ====
section
/-! DEFINITION. Load and store instructions (R200 to R205, 40_load_store.md).
First the effect of each instruction on the staged state, then one meaning for each opcode. -/

namespace Sys2Proof.Machine

/-- LDA (R200): `A <- op; SetNZ(A)`. -/
def loadA (src : Source) (s : State) : Staged State := do
  let op ← readSource src s
  return (s.withA op).setNZ op

/-- LDX (R201): `X <- op; SetNZ(X)`. -/
def loadX (src : Source) (s : State) : Staged State := do
  let op ← readSource src s
  return (s.withX op).setNZ op

/-- LDY (R202): `Y <- op; SetNZ(Y)`. -/
def loadY (src : Source) (s : State) : Staged State := do
  let op ← readSource src s
  return (s.withY op).setNZ op

/-- STA (R203): `MemWrite(EA, 1, A)`. -/
def storeA (m : MemMode) (s : State) : Staged State := storeTo m s.a s

/-- STX (R204): `MemWrite(EA, 1, X)`. -/
def storeX (m : MemMode) (s : State) : Staged State := storeTo m s.x s

/-- STY (R205): `MemWrite(EA, 1, Y)`. -/
def storeY (m : MemMode) (s : State) : Staged State := storeTo m s.y s

/-! ## One meaning for each opcode -/

/-- 0xA1 LDA (zp,X) (R200). -/
def execLdaIndX (zp : Byte) (s : State) : StepOutcome := execute 2 (loadA (.mem (.indX zp))) s

/-- 0xA5 LDA zp (R200). -/
def execLdaZp (zp : Byte) (s : State) : StepOutcome := execute 2 (loadA (.mem (.zp zp))) s

/-- 0xA9 LDA # (R200). -/
def execLdaImm (imm : Byte) (s : State) : StepOutcome := execute 2 (loadA (.imm imm)) s

/-- 0xAD LDA abs (R200). -/
def execLdaAbs (addr : Addr) (s : State) : StepOutcome := execute 3 (loadA (.mem (.abs addr))) s

/-- 0xB1 LDA (zp),Y (R200). -/
def execLdaIndY (zp : Byte) (s : State) : StepOutcome := execute 2 (loadA (.mem (.indY zp))) s

/-- 0xB5 LDA zp,X (R200). -/
def execLdaZpX (zp : Byte) (s : State) : StepOutcome := execute 2 (loadA (.mem (.zpX zp))) s

/-- 0xB9 LDA abs,Y (R200). -/
def execLdaAbsY (addr : Addr) (s : State) : StepOutcome := execute 3 (loadA (.mem (.absY addr))) s

/-- 0xBD LDA abs,X (R200). -/
def execLdaAbsX (addr : Addr) (s : State) : StepOutcome := execute 3 (loadA (.mem (.absX addr))) s

/-- 0xA2 LDX # (R201). -/
def execLdxImm (imm : Byte) (s : State) : StepOutcome := execute 2 (loadX (.imm imm)) s

/-- 0xA6 LDX zp (R201). -/
def execLdxZp (zp : Byte) (s : State) : StepOutcome := execute 2 (loadX (.mem (.zp zp))) s

/-- 0xAE LDX abs (R201). -/
def execLdxAbs (addr : Addr) (s : State) : StepOutcome := execute 3 (loadX (.mem (.abs addr))) s

/-- 0xB6 LDX zp,Y (R201). -/
def execLdxZpY (zp : Byte) (s : State) : StepOutcome := execute 2 (loadX (.mem (.zpY zp))) s

/-- 0xBE LDX abs,Y (R201). -/
def execLdxAbsY (addr : Addr) (s : State) : StepOutcome := execute 3 (loadX (.mem (.absY addr))) s

/-- 0xA0 LDY # (R202). -/
def execLdyImm (imm : Byte) (s : State) : StepOutcome := execute 2 (loadY (.imm imm)) s

/-- 0xA4 LDY zp (R202). -/
def execLdyZp (zp : Byte) (s : State) : StepOutcome := execute 2 (loadY (.mem (.zp zp))) s

/-- 0xAC LDY abs (R202). -/
def execLdyAbs (addr : Addr) (s : State) : StepOutcome := execute 3 (loadY (.mem (.abs addr))) s

/-- 0xB4 LDY zp,X (R202). -/
def execLdyZpX (zp : Byte) (s : State) : StepOutcome := execute 2 (loadY (.mem (.zpX zp))) s

/-- 0xBC LDY abs,X (R202). -/
def execLdyAbsX (addr : Addr) (s : State) : StepOutcome := execute 3 (loadY (.mem (.absX addr))) s

/-- 0x81 STA (zp,X) (R203). -/
def execStaIndX (zp : Byte) (s : State) : StepOutcome := execute 2 (storeA (.indX zp)) s

/-- 0x85 STA zp (R203). -/
def execStaZp (zp : Byte) (s : State) : StepOutcome := execute 2 (storeA (.zp zp)) s

/-- 0x8D STA abs (R203). -/
def execStaAbs (addr : Addr) (s : State) : StepOutcome := execute 3 (storeA (.abs addr)) s

/-- 0x91 STA (zp),Y (R203). -/
def execStaIndY (zp : Byte) (s : State) : StepOutcome := execute 2 (storeA (.indY zp)) s

/-- 0x95 STA zp,X (R203). -/
def execStaZpX (zp : Byte) (s : State) : StepOutcome := execute 2 (storeA (.zpX zp)) s

/-- 0x99 STA abs,Y (R203). -/
def execStaAbsY (addr : Addr) (s : State) : StepOutcome := execute 3 (storeA (.absY addr)) s

/-- 0x9D STA abs,X (R203). -/
def execStaAbsX (addr : Addr) (s : State) : StepOutcome := execute 3 (storeA (.absX addr)) s

/-- 0x86 STX zp (R204). -/
def execStxZp (zp : Byte) (s : State) : StepOutcome := execute 2 (storeX (.zp zp)) s

/-- 0x8E STX abs (R204). -/
def execStxAbs (addr : Addr) (s : State) : StepOutcome := execute 3 (storeX (.abs addr)) s

/-- 0x96 STX zp,Y (R204). -/
def execStxZpY (zp : Byte) (s : State) : StepOutcome := execute 2 (storeX (.zpY zp)) s

/-- 0x84 STY zp (R205). -/
def execStyZp (zp : Byte) (s : State) : StepOutcome := execute 2 (storeY (.zp zp)) s

/-- 0x8C STY abs (R205). -/
def execStyAbs (addr : Addr) (s : State) : StepOutcome := execute 3 (storeY (.abs addr)) s

/-- 0x94 STY zp,X (R205). -/
def execStyZpX (zp : Byte) (s : State) : StepOutcome := execute 2 (storeY (.zpX zp)) s

end Sys2Proof.Machine
end

