-- ==== Sys2Proof/Machine/Logical.lean ====
section
/-! DEFINITION. Bitwise logical instructions (R260 to R262, 43_logical.md).
First the effect of each instruction on the staged state, then one meaning for each opcode. -/

namespace Sys2Proof.Machine

/-- AND (R260): `A <- A & op; SetNZ(A)`. -/
def andA (src : Source) (s : State) : Staged State := do
  let op ← readSource src s
  return (s.withA (s.a &&& op)).setNZ (s.a &&& op)

/-- ORA (R261): `A <- A | op; SetNZ(A)`. -/
def orA (src : Source) (s : State) : Staged State := do
  let op ← readSource src s
  return (s.withA (s.a ||| op)).setNZ (s.a ||| op)

/-- EOR (R262): `A <- A ^ op; SetNZ(A)`. -/
def eorA (src : Source) (s : State) : Staged State := do
  let op ← readSource src s
  return (s.withA (s.a ^^^ op)).setNZ (s.a ^^^ op)

/-! ## One meaning for each opcode -/

/-- 0x21 AND (zp,X) (R260). -/
def execAndIndX (zp : Byte) (s : State) : StepOutcome := execute 2 (andA (.mem (.indX zp))) s

/-- 0x25 AND zp (R260). -/
def execAndZp (zp : Byte) (s : State) : StepOutcome := execute 2 (andA (.mem (.zp zp))) s

/-- 0x29 AND # (R260). -/
def execAndImm (imm : Byte) (s : State) : StepOutcome := execute 2 (andA (.imm imm)) s

/-- 0x2D AND abs (R260). -/
def execAndAbs (addr : Addr) (s : State) : StepOutcome := execute 3 (andA (.mem (.abs addr))) s

/-- 0x31 AND (zp),Y (R260). -/
def execAndIndY (zp : Byte) (s : State) : StepOutcome := execute 2 (andA (.mem (.indY zp))) s

/-- 0x35 AND zp,X (R260). -/
def execAndZpX (zp : Byte) (s : State) : StepOutcome := execute 2 (andA (.mem (.zpX zp))) s

/-- 0x39 AND abs,Y (R260). -/
def execAndAbsY (addr : Addr) (s : State) : StepOutcome := execute 3 (andA (.mem (.absY addr))) s

/-- 0x3D AND abs,X (R260). -/
def execAndAbsX (addr : Addr) (s : State) : StepOutcome := execute 3 (andA (.mem (.absX addr))) s

/-- 0x01 ORA (zp,X) (R261). -/
def execOraIndX (zp : Byte) (s : State) : StepOutcome := execute 2 (orA (.mem (.indX zp))) s

/-- 0x05 ORA zp (R261). -/
def execOraZp (zp : Byte) (s : State) : StepOutcome := execute 2 (orA (.mem (.zp zp))) s

/-- 0x09 ORA # (R261). -/
def execOraImm (imm : Byte) (s : State) : StepOutcome := execute 2 (orA (.imm imm)) s

/-- 0x0D ORA abs (R261). -/
def execOraAbs (addr : Addr) (s : State) : StepOutcome := execute 3 (orA (.mem (.abs addr))) s

/-- 0x11 ORA (zp),Y (R261). -/
def execOraIndY (zp : Byte) (s : State) : StepOutcome := execute 2 (orA (.mem (.indY zp))) s

/-- 0x15 ORA zp,X (R261). -/
def execOraZpX (zp : Byte) (s : State) : StepOutcome := execute 2 (orA (.mem (.zpX zp))) s

/-- 0x19 ORA abs,Y (R261). -/
def execOraAbsY (addr : Addr) (s : State) : StepOutcome := execute 3 (orA (.mem (.absY addr))) s

/-- 0x1D ORA abs,X (R261). -/
def execOraAbsX (addr : Addr) (s : State) : StepOutcome := execute 3 (orA (.mem (.absX addr))) s

/-- 0x41 EOR (zp,X) (R262). -/
def execEorIndX (zp : Byte) (s : State) : StepOutcome := execute 2 (eorA (.mem (.indX zp))) s

/-- 0x45 EOR zp (R262). -/
def execEorZp (zp : Byte) (s : State) : StepOutcome := execute 2 (eorA (.mem (.zp zp))) s

/-- 0x49 EOR # (R262). -/
def execEorImm (imm : Byte) (s : State) : StepOutcome := execute 2 (eorA (.imm imm)) s

/-- 0x4D EOR abs (R262). -/
def execEorAbs (addr : Addr) (s : State) : StepOutcome := execute 3 (eorA (.mem (.abs addr))) s

/-- 0x51 EOR (zp),Y (R262). -/
def execEorIndY (zp : Byte) (s : State) : StepOutcome := execute 2 (eorA (.mem (.indY zp))) s

/-- 0x55 EOR zp,X (R262). -/
def execEorZpX (zp : Byte) (s : State) : StepOutcome := execute 2 (eorA (.mem (.zpX zp))) s

/-- 0x59 EOR abs,Y (R262). -/
def execEorAbsY (addr : Addr) (s : State) : StepOutcome := execute 3 (eorA (.mem (.absY addr))) s

/-- 0x5D EOR abs,X (R262). -/
def execEorAbsX (addr : Addr) (s : State) : StepOutcome := execute 3 (eorA (.mem (.absX addr))) s

end Sys2Proof.Machine
end

