-- ==== Sys2Proof/Machine/Shift.lean ====
section
/-! DEFINITION. Shift and rotate instructions (R300 to R304, 45_shift_rotate.md).
First the effect of each instruction on the staged state, then one meaning for each opcode. -/

namespace Sys2Proof.Machine

/-- The shared form of a shift or rotate (R300): read the accumulator or memory operand, compute, write back, set C and
SetNZ. -/
def shiftTarget (op : Byte → Bool → ShiftResult) (tgt : Target) (s : State) : Staged State :=
  match tgt with
  | .acc =>
    let r := op s.a s.p.c
    .ok (((s.withA r.res).setC r.carry).setNZ r.res)
  | .mem m => do
    let (t, u) ← modifyAt m (fun t => (op t s.p.c).res) s
    return (u.setC (op t s.p.c).carry).setNZ (op t s.p.c).res

/-! ## One meaning for each opcode -/

/-- 0x06 ASL zp (R301). -/
def execAslZp (zp : Byte) (s : State) : StepOutcome := execute 2 (shiftTarget shiftASL (.mem (.zp zp))) s

/-- 0x0A ASL A (R301). -/
def execAslAcc (s : State) : StepOutcome := execute 1 (shiftTarget shiftASL .acc) s

/-- 0x0E ASL abs (R301). -/
def execAslAbs (addr : Addr) (s : State) : StepOutcome := execute 3 (shiftTarget shiftASL (.mem (.abs addr))) s

/-- 0x16 ASL zp,X (R301). -/
def execAslZpX (zp : Byte) (s : State) : StepOutcome := execute 2 (shiftTarget shiftASL (.mem (.zpX zp))) s

/-- 0x1E ASL abs,X (R301). -/
def execAslAbsX (addr : Addr) (s : State) : StepOutcome := execute 3 (shiftTarget shiftASL (.mem (.absX addr))) s

/-- 0x46 LSR zp (R302). -/
def execLsrZp (zp : Byte) (s : State) : StepOutcome := execute 2 (shiftTarget shiftLSR (.mem (.zp zp))) s

/-- 0x4A LSR A (R302). -/
def execLsrAcc (s : State) : StepOutcome := execute 1 (shiftTarget shiftLSR .acc) s

/-- 0x4E LSR abs (R302). -/
def execLsrAbs (addr : Addr) (s : State) : StepOutcome := execute 3 (shiftTarget shiftLSR (.mem (.abs addr))) s

/-- 0x56 LSR zp,X (R302). -/
def execLsrZpX (zp : Byte) (s : State) : StepOutcome := execute 2 (shiftTarget shiftLSR (.mem (.zpX zp))) s

/-- 0x5E LSR abs,X (R302). -/
def execLsrAbsX (addr : Addr) (s : State) : StepOutcome := execute 3 (shiftTarget shiftLSR (.mem (.absX addr))) s

/-- 0x26 ROL zp (R303). -/
def execRolZp (zp : Byte) (s : State) : StepOutcome := execute 2 (shiftTarget shiftROL (.mem (.zp zp))) s

/-- 0x2A ROL A (R303). -/
def execRolAcc (s : State) : StepOutcome := execute 1 (shiftTarget shiftROL .acc) s

/-- 0x2E ROL abs (R303). -/
def execRolAbs (addr : Addr) (s : State) : StepOutcome := execute 3 (shiftTarget shiftROL (.mem (.abs addr))) s

/-- 0x36 ROL zp,X (R303). -/
def execRolZpX (zp : Byte) (s : State) : StepOutcome := execute 2 (shiftTarget shiftROL (.mem (.zpX zp))) s

/-- 0x3E ROL abs,X (R303). -/
def execRolAbsX (addr : Addr) (s : State) : StepOutcome := execute 3 (shiftTarget shiftROL (.mem (.absX addr))) s

/-- 0x66 ROR zp (R304). -/
def execRorZp (zp : Byte) (s : State) : StepOutcome := execute 2 (shiftTarget shiftROR (.mem (.zp zp))) s

/-- 0x6A ROR A (R304). -/
def execRorAcc (s : State) : StepOutcome := execute 1 (shiftTarget shiftROR .acc) s

/-- 0x6E ROR abs (R304). -/
def execRorAbs (addr : Addr) (s : State) : StepOutcome := execute 3 (shiftTarget shiftROR (.mem (.abs addr))) s

/-- 0x76 ROR zp,X (R304). -/
def execRorZpX (zp : Byte) (s : State) : StepOutcome := execute 2 (shiftTarget shiftROR (.mem (.zpX zp))) s

/-- 0x7E ROR abs,X (R304). -/
def execRorAbsX (addr : Addr) (s : State) : StepOutcome := execute 3 (shiftTarget shiftROR (.mem (.absX addr))) s

end Sys2Proof.Machine
end

