-- ==== Sys2Proof/Machine/Dispatch.lean ====
section
/-! DEFINITION. The dispatch of the execute phase: one arm for each instruction, each a direct call of its meaning. -/

namespace Sys2Proof.Machine

/-- The execute phase on a decoded instruction (R105). -/
def exec (i : Instr) (s : State) : Host.Outcome State Fault Refusal :=
  match i with
  | .ldaIndX zp => Sys2Proof.Machine.execLdaIndX zp s
  | .ldaZp zp => Sys2Proof.Machine.execLdaZp zp s
  | .ldaImm imm => Sys2Proof.Machine.execLdaImm imm s
  | .ldaAbs addr => Sys2Proof.Machine.execLdaAbs addr s
  | .ldaIndY zp => Sys2Proof.Machine.execLdaIndY zp s
  | .ldaZpX zp => Sys2Proof.Machine.execLdaZpX zp s
  | .ldaAbsY addr => Sys2Proof.Machine.execLdaAbsY addr s
  | .ldaAbsX addr => Sys2Proof.Machine.execLdaAbsX addr s
  | .ldxImm imm => Sys2Proof.Machine.execLdxImm imm s
  | .ldxZp zp => Sys2Proof.Machine.execLdxZp zp s
  | .ldxAbs addr => Sys2Proof.Machine.execLdxAbs addr s
  | .ldxZpY zp => Sys2Proof.Machine.execLdxZpY zp s
  | .ldxAbsY addr => Sys2Proof.Machine.execLdxAbsY addr s
  | .ldyImm imm => Sys2Proof.Machine.execLdyImm imm s
  | .ldyZp zp => Sys2Proof.Machine.execLdyZp zp s
  | .ldyAbs addr => Sys2Proof.Machine.execLdyAbs addr s
  | .ldyZpX zp => Sys2Proof.Machine.execLdyZpX zp s
  | .ldyAbsX addr => Sys2Proof.Machine.execLdyAbsX addr s
  | .staIndX zp => Sys2Proof.Machine.execStaIndX zp s
  | .staZp zp => Sys2Proof.Machine.execStaZp zp s
  | .staAbs addr => Sys2Proof.Machine.execStaAbs addr s
  | .staIndY zp => Sys2Proof.Machine.execStaIndY zp s
  | .staZpX zp => Sys2Proof.Machine.execStaZpX zp s
  | .staAbsY addr => Sys2Proof.Machine.execStaAbsY addr s
  | .staAbsX addr => Sys2Proof.Machine.execStaAbsX addr s
  | .stxZp zp => Sys2Proof.Machine.execStxZp zp s
  | .stxAbs addr => Sys2Proof.Machine.execStxAbs addr s
  | .stxZpY zp => Sys2Proof.Machine.execStxZpY zp s
  | .styZp zp => Sys2Proof.Machine.execStyZp zp s
  | .styAbs addr => Sys2Proof.Machine.execStyAbs addr s
  | .styZpX zp => Sys2Proof.Machine.execStyZpX zp s
  | .incZp zp => Sys2Proof.Machine.execIncZp zp s
  | .incAbs addr => Sys2Proof.Machine.execIncAbs addr s
  | .incZpX zp => Sys2Proof.Machine.execIncZpX zp s
  | .incAbsX addr => Sys2Proof.Machine.execIncAbsX addr s
  | .decZp zp => Sys2Proof.Machine.execDecZp zp s
  | .decAbs addr => Sys2Proof.Machine.execDecAbs addr s
  | .decZpX zp => Sys2Proof.Machine.execDecZpX zp s
  | .decAbsX addr => Sys2Proof.Machine.execDecAbsX addr s
  | .inx => Sys2Proof.Machine.execInx s
  | .iny => Sys2Proof.Machine.execIny s
  | .dex => Sys2Proof.Machine.execDex s
  | .dey => Sys2Proof.Machine.execDey s
  | .cmpIndX zp => Sys2Proof.Machine.execCmpIndX zp s
  | .cmpZp zp => Sys2Proof.Machine.execCmpZp zp s
  | .cmpImm imm => Sys2Proof.Machine.execCmpImm imm s
  | .cmpAbs addr => Sys2Proof.Machine.execCmpAbs addr s
  | .cmpIndY zp => Sys2Proof.Machine.execCmpIndY zp s
  | .cmpZpX zp => Sys2Proof.Machine.execCmpZpX zp s
  | .cmpAbsY addr => Sys2Proof.Machine.execCmpAbsY addr s
  | .cmpAbsX addr => Sys2Proof.Machine.execCmpAbsX addr s
  | .cpxImm imm => Sys2Proof.Machine.execCpxImm imm s
  | .cpxZp zp => Sys2Proof.Machine.execCpxZp zp s
  | .cpxAbs addr => Sys2Proof.Machine.execCpxAbs addr s
  | .cpyImm imm => Sys2Proof.Machine.execCpyImm imm s
  | .cpyZp zp => Sys2Proof.Machine.execCpyZp zp s
  | .cpyAbs addr => Sys2Proof.Machine.execCpyAbs addr s
  | .bitZp zp => Sys2Proof.Machine.execBitZp zp s
  | .bitAbs addr => Sys2Proof.Machine.execBitAbs addr s
  | .andIndX zp => Sys2Proof.Machine.execAndIndX zp s
  | .andZp zp => Sys2Proof.Machine.execAndZp zp s
  | .andImm imm => Sys2Proof.Machine.execAndImm imm s
  | .andAbs addr => Sys2Proof.Machine.execAndAbs addr s
  | .andIndY zp => Sys2Proof.Machine.execAndIndY zp s
  | .andZpX zp => Sys2Proof.Machine.execAndZpX zp s
  | .andAbsY addr => Sys2Proof.Machine.execAndAbsY addr s
  | .andAbsX addr => Sys2Proof.Machine.execAndAbsX addr s
  | .oraIndX zp => Sys2Proof.Machine.execOraIndX zp s
  | .oraZp zp => Sys2Proof.Machine.execOraZp zp s
  | .oraImm imm => Sys2Proof.Machine.execOraImm imm s
  | .oraAbs addr => Sys2Proof.Machine.execOraAbs addr s
  | .oraIndY zp => Sys2Proof.Machine.execOraIndY zp s
  | .oraZpX zp => Sys2Proof.Machine.execOraZpX zp s
  | .oraAbsY addr => Sys2Proof.Machine.execOraAbsY addr s
  | .oraAbsX addr => Sys2Proof.Machine.execOraAbsX addr s
  | .eorIndX zp => Sys2Proof.Machine.execEorIndX zp s
  | .eorZp zp => Sys2Proof.Machine.execEorZp zp s
  | .eorImm imm => Sys2Proof.Machine.execEorImm imm s
  | .eorAbs addr => Sys2Proof.Machine.execEorAbs addr s
  | .eorIndY zp => Sys2Proof.Machine.execEorIndY zp s
  | .eorZpX zp => Sys2Proof.Machine.execEorZpX zp s
  | .eorAbsY addr => Sys2Proof.Machine.execEorAbsY addr s
  | .eorAbsX addr => Sys2Proof.Machine.execEorAbsX addr s
  | .adcIndX zp => Sys2Proof.Machine.execAdcIndX zp s
  | .adcZp zp => Sys2Proof.Machine.execAdcZp zp s
  | .adcImm imm => Sys2Proof.Machine.execAdcImm imm s
  | .adcAbs addr => Sys2Proof.Machine.execAdcAbs addr s
  | .adcIndY zp => Sys2Proof.Machine.execAdcIndY zp s
  | .adcZpX zp => Sys2Proof.Machine.execAdcZpX zp s
  | .adcAbsY addr => Sys2Proof.Machine.execAdcAbsY addr s
  | .adcAbsX addr => Sys2Proof.Machine.execAdcAbsX addr s
  | .sbcIndX zp => Sys2Proof.Machine.execSbcIndX zp s
  | .sbcZp zp => Sys2Proof.Machine.execSbcZp zp s
  | .sbcImm imm => Sys2Proof.Machine.execSbcImm imm s
  | .sbcAbs addr => Sys2Proof.Machine.execSbcAbs addr s
  | .sbcIndY zp => Sys2Proof.Machine.execSbcIndY zp s
  | .sbcZpX zp => Sys2Proof.Machine.execSbcZpX zp s
  | .sbcAbsY addr => Sys2Proof.Machine.execSbcAbsY addr s
  | .sbcAbsX addr => Sys2Proof.Machine.execSbcAbsX addr s
  | .aslZp zp => Sys2Proof.Machine.execAslZp zp s
  | .aslAcc => Sys2Proof.Machine.execAslAcc s
  | .aslAbs addr => Sys2Proof.Machine.execAslAbs addr s
  | .aslZpX zp => Sys2Proof.Machine.execAslZpX zp s
  | .aslAbsX addr => Sys2Proof.Machine.execAslAbsX addr s
  | .lsrZp zp => Sys2Proof.Machine.execLsrZp zp s
  | .lsrAcc => Sys2Proof.Machine.execLsrAcc s
  | .lsrAbs addr => Sys2Proof.Machine.execLsrAbs addr s
  | .lsrZpX zp => Sys2Proof.Machine.execLsrZpX zp s
  | .lsrAbsX addr => Sys2Proof.Machine.execLsrAbsX addr s
  | .rolZp zp => Sys2Proof.Machine.execRolZp zp s
  | .rolAcc => Sys2Proof.Machine.execRolAcc s
  | .rolAbs addr => Sys2Proof.Machine.execRolAbs addr s
  | .rolZpX zp => Sys2Proof.Machine.execRolZpX zp s
  | .rolAbsX addr => Sys2Proof.Machine.execRolAbsX addr s
  | .rorZp zp => Sys2Proof.Machine.execRorZp zp s
  | .rorAcc => Sys2Proof.Machine.execRorAcc s
  | .rorAbs addr => Sys2Proof.Machine.execRorAbs addr s
  | .rorZpX zp => Sys2Proof.Machine.execRorZpX zp s
  | .rorAbsX addr => Sys2Proof.Machine.execRorAbsX addr s
  | .bpl off => Sys2Proof.Machine.execBpl off s
  | .bmi off => Sys2Proof.Machine.execBmi off s
  | .bvc off => Sys2Proof.Machine.execBvc off s
  | .bvs off => Sys2Proof.Machine.execBvs off s
  | .bcc off => Sys2Proof.Machine.execBcc off s
  | .bcs off => Sys2Proof.Machine.execBcs off s
  | .bne off => Sys2Proof.Machine.execBne off s
  | .beq off => Sys2Proof.Machine.execBeq off s
  | .jmpAbs addr => Sys2Proof.Machine.execJmpAbs addr s
  | .jmpInd ptr => Sys2Proof.Machine.execJmpInd ptr s
  | .jsrAbs addr => Sys2Proof.Machine.execJsrAbs addr s
  | .rts => Sys2Proof.Machine.execRts s
  | .brk => Sys2Proof.Machine.execBrk s
  | .rti => Sys2Proof.Machine.execRti s
  | .pha => Sys2Proof.Machine.execPha s
  | .php => Sys2Proof.Machine.execPhp s
  | .pla => Sys2Proof.Machine.execPla s
  | .plp => Sys2Proof.Machine.execPlp s
  | .tax => Sys2Proof.Machine.execTax s
  | .tay => Sys2Proof.Machine.execTay s
  | .txa => Sys2Proof.Machine.execTxa s
  | .tya => Sys2Proof.Machine.execTya s
  | .tsx => Sys2Proof.Machine.execTsx s
  | .txs => Sys2Proof.Machine.execTxs s
  | .clc => Sys2Proof.Machine.execClc s
  | .sec => Sys2Proof.Machine.execSec s
  | .cli => Sys2Proof.Machine.execCli s
  | .sei => Sys2Proof.Machine.execSei s
  | .cld => Sys2Proof.Machine.execCld s
  | .sed => Sys2Proof.Machine.execSed s
  | .clv => Sys2Proof.Machine.execClv s
  | .nop => Sys2Proof.Machine.execNop s
  | .sloIndX zp => Sys2Proof.Machine.execSloIndX zp s
  | .sloZp zp => Sys2Proof.Machine.execSloZp zp s
  | .sloAbs addr => Sys2Proof.Machine.execSloAbs addr s
  | .sloIndY zp => Sys2Proof.Machine.execSloIndY zp s
  | .sloZpX zp => Sys2Proof.Machine.execSloZpX zp s
  | .sloAbsY addr => Sys2Proof.Machine.execSloAbsY addr s
  | .sloAbsX addr => Sys2Proof.Machine.execSloAbsX addr s
  | .rlaIndX zp => Sys2Proof.Machine.execRlaIndX zp s
  | .rlaZp zp => Sys2Proof.Machine.execRlaZp zp s
  | .rlaAbs addr => Sys2Proof.Machine.execRlaAbs addr s
  | .rlaIndY zp => Sys2Proof.Machine.execRlaIndY zp s
  | .rlaZpX zp => Sys2Proof.Machine.execRlaZpX zp s
  | .rlaAbsY addr => Sys2Proof.Machine.execRlaAbsY addr s
  | .rlaAbsX addr => Sys2Proof.Machine.execRlaAbsX addr s
  | .sreIndX zp => Sys2Proof.Machine.execSreIndX zp s
  | .sreZp zp => Sys2Proof.Machine.execSreZp zp s
  | .sreAbs addr => Sys2Proof.Machine.execSreAbs addr s
  | .sreIndY zp => Sys2Proof.Machine.execSreIndY zp s
  | .sreZpX zp => Sys2Proof.Machine.execSreZpX zp s
  | .sreAbsY addr => Sys2Proof.Machine.execSreAbsY addr s
  | .sreAbsX addr => Sys2Proof.Machine.execSreAbsX addr s
  | .rraIndX zp => Sys2Proof.Machine.execRraIndX zp s
  | .rraZp zp => Sys2Proof.Machine.execRraZp zp s
  | .rraAbs addr => Sys2Proof.Machine.execRraAbs addr s
  | .rraIndY zp => Sys2Proof.Machine.execRraIndY zp s
  | .rraZpX zp => Sys2Proof.Machine.execRraZpX zp s
  | .rraAbsY addr => Sys2Proof.Machine.execRraAbsY addr s
  | .rraAbsX addr => Sys2Proof.Machine.execRraAbsX addr s
  | .dcpIndX zp => Sys2Proof.Machine.execDcpIndX zp s
  | .dcpZp zp => Sys2Proof.Machine.execDcpZp zp s
  | .dcpAbs addr => Sys2Proof.Machine.execDcpAbs addr s
  | .dcpIndY zp => Sys2Proof.Machine.execDcpIndY zp s
  | .dcpZpX zp => Sys2Proof.Machine.execDcpZpX zp s
  | .dcpAbsY addr => Sys2Proof.Machine.execDcpAbsY addr s
  | .dcpAbsX addr => Sys2Proof.Machine.execDcpAbsX addr s
  | .isbIndX zp => Sys2Proof.Machine.execIsbIndX zp s
  | .isbZp zp => Sys2Proof.Machine.execIsbZp zp s
  | .isbAbs addr => Sys2Proof.Machine.execIsbAbs addr s
  | .isbIndY zp => Sys2Proof.Machine.execIsbIndY zp s
  | .isbZpX zp => Sys2Proof.Machine.execIsbZpX zp s
  | .isbAbsY addr => Sys2Proof.Machine.execIsbAbsY addr s
  | .isbAbsX addr => Sys2Proof.Machine.execIsbAbsX addr s
  | .laxIndX zp => Sys2Proof.Machine.execLaxIndX zp s
  | .laxZp zp => Sys2Proof.Machine.execLaxZp zp s
  | .laxAbs addr => Sys2Proof.Machine.execLaxAbs addr s
  | .laxIndY zp => Sys2Proof.Machine.execLaxIndY zp s
  | .laxZpY zp => Sys2Proof.Machine.execLaxZpY zp s
  | .laxAbsY addr => Sys2Proof.Machine.execLaxAbsY addr s
  | .saxIndX zp => Sys2Proof.Machine.execSaxIndX zp s
  | .saxZp zp => Sys2Proof.Machine.execSaxZp zp s
  | .saxAbs addr => Sys2Proof.Machine.execSaxAbs addr s
  | .saxZpY zp => Sys2Proof.Machine.execSaxZpY zp s
  | .sbcImmEB imm => Sys2Proof.Machine.execSbcImmEB imm s
  | .nopZp04 zp => Sys2Proof.Machine.execNopZp04 zp s
  | .nopAbs0C addr => Sys2Proof.Machine.execNopAbs0C addr s
  | .nopZpX14 zp => Sys2Proof.Machine.execNopZpX14 zp s
  | .nopImp1A => Sys2Proof.Machine.execNopImp1A s
  | .nopAbsX1C addr => Sys2Proof.Machine.execNopAbsX1C addr s
  | .nopZpX34 zp => Sys2Proof.Machine.execNopZpX34 zp s
  | .nopImp3A => Sys2Proof.Machine.execNopImp3A s
  | .nopAbsX3C addr => Sys2Proof.Machine.execNopAbsX3C addr s
  | .nopZp44 zp => Sys2Proof.Machine.execNopZp44 zp s
  | .nopZpX54 zp => Sys2Proof.Machine.execNopZpX54 zp s
  | .nopImp5A => Sys2Proof.Machine.execNopImp5A s
  | .nopAbsX5C addr => Sys2Proof.Machine.execNopAbsX5C addr s
  | .nopZp64 zp => Sys2Proof.Machine.execNopZp64 zp s
  | .nopZpX74 zp => Sys2Proof.Machine.execNopZpX74 zp s
  | .nopImp7A => Sys2Proof.Machine.execNopImp7A s
  | .nopAbsX7C addr => Sys2Proof.Machine.execNopAbsX7C addr s
  | .nopImm80 imm => Sys2Proof.Machine.execNopImm80 imm s
  | .nopImm82 imm => Sys2Proof.Machine.execNopImm82 imm s
  | .nopImm89 imm => Sys2Proof.Machine.execNopImm89 imm s
  | .nopImmC2 imm => Sys2Proof.Machine.execNopImmC2 imm s
  | .nopZpXD4 zp => Sys2Proof.Machine.execNopZpXD4 zp s
  | .nopImpDA => Sys2Proof.Machine.execNopImpDA s
  | .nopAbsXDC addr => Sys2Proof.Machine.execNopAbsXDC addr s
  | .nopImmE2 imm => Sys2Proof.Machine.execNopImmE2 imm s
  | .nopZpXF4 zp => Sys2Proof.Machine.execNopZpXF4 zp s
  | .nopImpFA => Sys2Proof.Machine.execNopImpFA s
  | .nopAbsXFC addr => Sys2Proof.Machine.execNopAbsXFC addr s

end Sys2Proof.Machine
end

