-- ==== Sys2Proof/Machine/Fetch.lean ====
section
/-! DEFINITION. The decode phase of a step (R102): fetching an instruction's bytes, and placing bytes where the next fetch
reads them. -/

namespace Sys2Proof.Machine

/-- `Fetch(a)` (R70). In stream mode the spec does not define it at or beyond CODE_LEN, and `fetchInstr` never asks there
(notes/assumptions/10.md). -/
def fetchByte (s : State) (a : Addr) : Staged Byte :=
  match s.cfg.fetchSource with
  | .memory => memRead s a
  | .stream =>
    match s.code[a.toNat]? with
    | some b => .ok b
    | none => .error (.raise (.truncatedOperand s.pc))

/-- What the decode phase ends in. -/
inductive Fetched where
  | stopped (r : StopRecord)
  | failed  (e : ErrorRecord)
  | instr   (i : Instr)
  deriving DecidableEq, Repr

/-- An operand or opcode fetch that failed. A fetch never refuses. -/
def fetchFailure (s : State) : Abort → Fetched
  | .raise e => .failed e
  | .refuse => .failed (.truncatedOperand s.pc)

/-- The end of the stream has been reached: stream mode and `n > CODE_LEN`. -/
def beyondCode (s : State) (n : Nat) : Bool :=
  s.cfg.fetchSource == .stream && decide (s.code.length < n)

/-- The operand bytes of the cell, fetched from the addresses after the opcode (R102). -/
def fetchOperands (s : State) (cell : Template) : Fetched :=
  match cell with
  | .one i => .instr i
  | .two f =>
    match fetchByte s (s.pc + 1) with
    | .error e => fetchFailure s e
    | .ok b1 => .instr (f b1)
  | .three f =>
    match fetchByte s (s.pc + 1) with
    | .error e => fetchFailure s e
    | .ok b1 =>
      match fetchByte s (s.pc + 2) with
      | .error e => fetchFailure s e
      | .ok b2 => .instr (f (hiLo b2 b1))

/-- The decode phase, its checks in the order of R102. `a + L > CODE_LEN` is compared without wrapping. -/
def fetchInstr (s : State) : Fetched :=
  if beyondCode s (s.pc.toNat + 1) then .stopped .endOfStream
  else match fetchByte s s.pc with
    | .error e => fetchFailure s e
    | .ok opc =>
      match classify s.cfg opc with
      | .halt => .stopped (.haltOpcode opc s.pc)
      | .unknown => .failed (.unknownOpcode opc s.pc)
      | .admitted cell =>
        if beyondCode s (s.pc.toNat + cell.length) then .failed (.truncatedOperand s.pc)
        else fetchOperands s cell

/-- The stream with `bs` placed at offset `n`: zeros below it where the stream was shorter, at most 65536 bytes (D18). -/
def spliceCode (code : List Byte) (n : Nat) (bs : List Byte) : List Byte :=
  (code.take n ++ List.replicate (n - code.length) 0x00 ++ bs ++ code.drop (n + bs.length)).take 65536

/-- Store bytes at consecutive addresses of data memory. An address that Map rejects is skipped. -/
def placeInMemory (s : State) (a : Addr) : List Byte → State
  | [] => s
  | b :: bs =>
    match memWrite s a b with
    | .ok t => placeInMemory t (a + 1) bs
    | .error _ => placeInMemory s (a + 1) bs

/-- Place bytes where the next step fetches its instruction, and make the engine Ready (notes/assumptions/8.md). -/
def placeAtPC (s : State) (bs : List Byte) : State :=
  match s.cfg.fetchSource with
  | .stream => { s with code := spliceCode s.code s.pc.toNat bs, eng := .ready }
  | .memory => { placeInMemory s s.pc bs with eng := .ready }

end Sys2Proof.Machine
end

