-- ==== Sys2Proof/Machine/Step.lean ====
section
/-! DEFINITION. One step (R100, R102): from Halted no step is enabled; from Ready, decode and then execute. -/

namespace Sys2Proof.Machine

/-- One step of the block. A stop or an error of the decode phase is a next state that is Halted and records it. -/
def step (s : State) : Host.Outcome State Fault Refusal :=
  match s.eng with
  | .halted => haltedOutcome s
  | .ready =>
    match fetchInstr s with
    | .stopped r => .next (s.haltOnStop r)
    | .failed e => .next (s.haltOnError e)
    | .instr i => exec i s

/-- The state with a table word stored where `step` fetches its next instruction. -/
def State.withFetchWord (s : State) (nbits w : Nat) : State := placeAtPC s (tableWordBytes nbits w)

end Sys2Proof.Machine
end

