-- ==== Sys2Proof/Safety.lean ====
section
/-! DEFINITION. What counts as a well-formed state and as an ended or successful run, in the terms the statements use. -/

namespace Sys2Proof.Machine

/-- Every listed cell of memory has an index of M (R61). -/
abbrev State.memInRange (s : State) : Prop := ∀ c ∈ s.mem, c.1 < s.cfg.memSize.bytes

/-- The host's duty on the stream: CODE_LEN is at most 65536 (R10, R514). -/
abbrev State.codeInRange (s : State) : Prop := s.code.length ≤ 65536

/-- How many of FAULT, STOP and REFUSED are recorded (R46). -/
def State.records (s : State) : Nat := s.fault.isSome.toNat + s.stop.isSome.toNat + s.refused.toNat

/-- A Ready engine has recorded nothing, and a Halted one exactly one outcome (R506, R507, R508, R603). -/
abbrev State.recordsAgree (s : State) : Prop :=
  (s.eng = .ready → s.records = 0) ∧ (s.eng = .halted → s.records = 1)

/-- The invariant of the machine. -/
abbrev State.wf (s : State) : Prop :=
  s.mem.wf ∧ s.memInRange ∧ s.codeInRange ∧ s.recordsAgree

/-- Launch inputs as the host owes them (R514): CODE_LEN at most 65536, and MEM_INIT an image of MEM_SIZE bytes in the
canonical form. -/
abbrev Launch.wf (cfg : Config) (l : Launch) : Prop :=
  l.memInit.wf ∧ (∀ c ∈ l.memInit, c.1 < cfg.memSize.bytes) ∧ l.code.length ≤ 65536

/-- The run has ended (R519). -/
abbrev State.ended (s : State) : Prop := s.eng = .halted

/-- The run has ended successfully (R519): a normal stop is recorded, no error and no refusal. -/
abbrev State.successful (s : State) : Prop :=
  s.eng = .halted ∧ s.stop.isSome = true ∧ s.fault = none ∧ s.refused = false

/-- `next` of an instruction at the state's PC (R17, R34): PC plus the encoded length, wrapping at 16 bits. -/
def nextPC (s : State) (i : Instr) : Addr := s.pc + BitVec.ofNat 16 i.length

/-- The index of M of the stack byte that a stack offset designates (R36). It lies below 512, so in every memory (R370). -/
def stackIndex (sp : Byte) : Nat := 256 + sp.toNat

/-- The flags with Z and N taken from a result (R16, R38): Z iff it is the all-zero byte, N its bit 7. -/
def withZN (p : Flags) (r : Byte) : Flags := { p with z := decide (r.toNat = 0), n := r.getLsbD 7 }

/-- The 25 opcodes that no configuration admits (R132). -/
def unassignedOpcodes : List Byte :=
  [0x02, 0x12, 0x22, 0x32, 0x42, 0x52, 0x62, 0x72, 0x92, 0xB2, 0xD2, 0xF2, 0x0B, 0x2B, 0x4B, 0x6B, 0x8B, 0xAB, 0xCB, 0x93,
   0x9B, 0x9C, 0x9E, 0x9F, 0xBB]

/-- The opcode is admitted under the configuration (R130, R131, R132): not one of the 25, and not one of the 80 while
ILLEGAL_SET = none. -/
abbrev opcodeAdmitted (cfg : Config) (opc : Byte) : Prop :=
  opc ∉ unassignedOpcodes ∧ ¬ (cfg.illegalSet = .none ∧ opc ∈ undocumentedOpcodes)

/-- The instruction is barred by the decimal refusal (R283): DECIMAL_MODE = refuse and P.D = 1. -/
abbrev State.decimalRefused (s : State) : Prop := s.cfg.decimalMode = .refuse ∧ s.p.d = true

end Sys2Proof.Machine
end

