-- ==== Sys2Proof/Certificates/Slice0/Obligations.lean ====
section
/-! DEFINITION. The statements for the provers. Each docstring names the rules of spec/ it formalises. `i.triple = (m, o)`
says that the instruction is a form of the mnemonic m with the operand o (R103), so a statement over all such i holds of every
constructor of Instr that the mnemonic has, with every operand value. An equation `exec i s = .next t` states the completion,
the result and the frame at once: t is s but for the fields it names. -/

open Sys2Proof Sys2Proof.Machine

/-! ## Session creation and the invariant -/

/-- Session creation gives every register, flag and engine field the value of R600's table, for every configuration, every
draw and every launch input (R600). That the register and flag values are draws is the spec's decision D10, and that P.B
is stored is its decision D9, which the model follows (notes/assumptions/15.md). -/
def Obligations.SessionCreationGivesStatedValues : Prop :=
  ∀ (cfg : Config) (l : Launch),
    (State.create cfg l).a = l.resetA ∧ (State.create cfg l).x = l.resetX ∧ (State.create cfg l).y = l.resetY ∧
    (State.create cfg l).sp = l.resetSP ∧
    (State.create cfg l).p.c = l.resetP.getLsbD 0 ∧ (State.create cfg l).p.z = l.resetP.getLsbD 1 ∧
    (State.create cfg l).p.i = l.resetP.getLsbD 2 ∧ (State.create cfg l).p.d = l.resetP.getLsbD 3 ∧
    (State.create cfg l).p.b = l.resetP.getLsbD 4 ∧ (State.create cfg l).p.v = l.resetP.getLsbD 6 ∧
    (State.create cfg l).p.n = l.resetP.getLsbD 7 ∧
    (State.create cfg l).pc = l.start ∧ (State.create cfg l).mem = l.memInit ∧
    (State.create cfg l).eng = .ready ∧ (State.create cfg l).fault = none ∧ (State.create cfg l).stop = none ∧
    (State.create cfg l).refused = false

/-- The invariant holds at reset, and at the creation of every session whose launch inputs keep the host's duty. The values
of `State.reset` are the model's choice (notes/assumptions/2.md to 5.md). -/
def Obligations.CreatedStatesAreWellFormed : Prop :=
  State.reset.wf ∧ ∀ (cfg : Config) (l : Launch), l.wf cfg → (State.create cfg l).wf

/-- Every step keeps the invariant: memory canonical and inside MEM_SIZE, CODE_LEN at most 65536, nothing recorded while
Ready, and exactly one of FAULT, STOP and REFUSED recorded once Halted. -/
def Obligations.StepKeepsStateWellFormed : Prop :=
  ∀ (s t : State), s.wf → step s = .next t → t.wf

/-- No step changes the configuration or the stream (R48, R70), whatever the instruction. -/
def Obligations.StepKeepsSessionInputs : Prop :=
  ∀ (s t : State), step s = .next t → t.cfg = s.cfg ∧ t.code = s.code

/-- P.B (R40): no step changes it, and no step's other effects depend on it: the step of a state with another P.B is the
same step with that other P.B. That P.B is stored and that nothing writes or reads it is the spec's decision D9
(notes/assumptions/15.md). -/
def Obligations.BreakFlagIsKeptAndUnobservable : Prop :=
  ∀ (s : State) (b : Bool),
    (∀ t, step s = .next t → t.p.b = s.p.b) ∧
    (∀ t, step s = .next t → step { s with p := { s.p with b := b } } = .next { t with p := { t.p with b := b } }) ∧
    (∀ e, step s = .fault e → step { s with p := { s.p with b := b } } = .fault e) ∧
    (∀ r, step s = .refused r → step { s with p := { s.p with b := b } } = .refused r)

/-- What a step records (R46, R505 to R508). A step that ends in an error, a normal stop or a refusal changes no register,
no flag and no memory byte, records exactly one outcome, and changes no earlier record. A step that leaves the engine
Ready started Ready and records nothing. That these outcomes are next states which record them is the model's reading
(DEDUCED, notes/assumptions/6.md); halting on every error, the stops and the refusal are the spec's decisions D5, D7 and
D8 (notes/assumptions/11.md). -/
def Obligations.HaltingStepsChangeNothingButTheirRecord : Prop :=
  ∀ (s t : State), step s = .next t →
    (t.eng = .halted →
      (t.a = s.a ∧ t.x = s.x ∧ t.y = s.y ∧ t.sp = s.sp ∧ t.pc = s.pc ∧ t.p = s.p ∧ t.mem = s.mem) ∧
      ((∃ e, t.fault = some e ∧ t.stop = s.stop ∧ t.refused = s.refused) ∨
       (∃ r, t.stop = some r ∧ t.fault = s.fault ∧ t.refused = s.refused) ∨
       (t.refused = true ∧ t.fault = s.fault ∧ t.stop = s.stop))) ∧
    (t.eng = .ready → s.eng = .ready ∧ t.fault = s.fault ∧ t.stop = s.stop ∧ t.refused = s.refused)

/-- A step answers a next state exactly when the engine is Ready. From Halted no step is enabled (R45), and the model
answers a fault or a refusal by name (DEDUCED, notes/assumptions/7.md). From every Ready state, whatever its registers,
flags, memory, stream and configuration, a step ends (R605, R620) in a next state: the state after a completed
instruction, or, where it ends in an error, a stop or a refusal, a Halted state that records it, which is the model's
choice of outcome (DEDUCED, notes/assumptions/6.md). -/
def Obligations.StepAnswersNextExactlyWhenReady : Prop :=
  ∀ (s : State), (∃ t, step s = .next t) ↔ s.eng = .ready

/-! ## Decode, encode and the decode phase -/

/-- Decoding the words of a well-formed instruction gives it back with the bytes that follow (R101, R104, R130, R131). -/
def Obligations.DecodeOfEncodeIsTheInstruction : Prop :=
  ∀ (cfg : Config) (i : Instr) (rest : List Byte), i.wellFormed cfg = true →
    decode cfg (encode i ++ rest) = .ok (i, rest)

/-- What decodes is the encoding of a well-formed instruction, of L bytes, and nothing else does (R101, R104, R133). -/
def Obligations.DecodedBytesAreAnEncoding : Prop :=
  ∀ (cfg : Config) (bs rest : List Byte) (i : Instr), decode cfg bs = .ok (i, rest) →
    bs = encode i ++ rest ∧ (encode i).length = i.length ∧ i.wellFormed cfg = true

/-- Words written out from the encodings of R200, R201, R242, R342, R203, R220, R341, R327, R301, R346, R407 and R410. The
spec gives these opcodes from general knowledge but for A9, A2, E0 and 20 (notes/assumptions/12.md). -/
def Obligations.SampleWordsDecode : Prop :=
  decodeTableWord 16 0x80A9 = some (.ldaImm 0x80) ∧ decodeTableWord 16 0x05A2 = some (.ldxImm 0x05) ∧
  decodeTableWord 16 0x05E0 = some (.cpxImm 0x05) ∧ decodeTableWord 24 0x001020 = some (.jsrAbs 0x0010) ∧
  decodeTableWord 24 0x12349D = some (.staAbsX 0x1234) ∧ decodeTableWord 16 0x10F6 = some (.incZpX 0x10) ∧
  decodeTableWord 24 0x02FF6C = some (.jmpInd 0x02FF) ∧ decodeTableWord 16 0xF8D0 = some (.bne 0xF8) ∧
  decodeTableWord 8 0x0A = some .aslAcc ∧ decodeTableWord 8 0x00 = some .brk ∧
  decodeTableWord 16 0x20B3 = some (.laxIndY 0x20) ∧ decodeTableWord 24 0x12340C = some (.nopAbs0C 0x1234)

/-- A step runs the decoded instruction (R70, R102): when the bytes from PC on decode to an instruction, the bytes of CODE in
stream mode or those data memory holds at PC, PC + 1, ... in memory mode, the step is the execution of it. The execution itself
sets PC to `next` (R105), so the step adds nothing around it. -/
def Obligations.StepRunsTheDecodedInstruction : Prop :=
  ∀ (s : State) (i : Instr), s.eng = .ready → s.codeInRange →
    (∀ rest, s.cfg.fetchSource = .stream → decode s.cfg (s.code.drop s.pc.toNat) = .ok (i, rest) → step s = exec i s) ∧
    (∀ bs : List Byte, s.cfg.fetchSource = .memory →
      (∀ (k : Nat) (b : Byte), bs[k]? = some b → memRead s (s.pc + BitVec.ofNat 16 k) = .ok b) →
      decode s.cfg bs = .ok (i, []) → step s = exec i s)

/-- UnknownOpcode (R501): where the fetched opcode is not admitted (one of the 25 of R132, or one of the 80 of R131 while
ILLEGAL_SET = none) and is no halt opcode, the engine records it with the opcode's PC and halts, and nothing else changes.
An admitted opcode and a byte in HALT_OPCODES never raise it. Halting on an error, the set of undocumented opcodes and the
precedence of HALT_OPCODES are the spec's decisions D5, D6 and D8 (notes/assumptions/11.md). -/
def Obligations.UnknownOpcodeHalts : Prop :=
  ∀ (s : State) (opc : Byte), s.eng = .ready → beyondCode s (s.pc.toNat + 1) = false → fetchByte s s.pc = .ok opc →
    (opc ∉ s.cfg.haltOpcodes → ¬ opcodeAdmitted s.cfg opc →
      step s = .next { s with fault := some (.unknownOpcode opc s.pc), eng := .halted }) ∧
    (opc ∈ s.cfg.haltOpcodes ∨ opcodeAdmitted s.cfg opc → s.fault = none →
      ∀ (t : State) (b : Byte) (a : Addr), step s = .next t → t.fault ≠ some (.unknownOpcode b a))

/-- TruncatedOperand (R502): in stream mode, when the admitted opcode at PC has length L and PC + L > CODE_LEN, the engine
records it with the opcode's PC and halts. It cannot arise in memory mode. The recorded offset and the order of the checks
are the spec's decision D5 (notes/assumptions/11.md). -/
def Obligations.TruncatedOperandHalts : Prop :=
  (∀ (s : State) (opc : Byte) (cell : Template), s.eng = .ready → s.cfg.fetchSource = .stream →
    s.code[s.pc.toNat]? = some opc → classify s.cfg opc = .admitted cell → s.code.length < s.pc.toNat + cell.length →
    step s = .next { s with fault := some (.truncatedOperand s.pc), eng := .halted }) ∧
  (∀ (s t : State) (a : Addr), s.cfg.fetchSource = .memory → s.fault = none → step s = .next t →
    t.fault ≠ some (.truncatedOperand a))

/-- The two normal stops (R507, R102): EndOfStream where PC is at or beyond CODE_LEN in stream mode, and HaltOpcode where
the fetched opcode is in HALT_OPCODES, which wins over the table and over a truncated operand. Neither changes any other
state. A stop that a step records leaves FAULT = none, given that a Ready engine has recorded nothing. The stops are the
spec's decisions D5 and D8 (notes/assumptions/11.md). -/
def Obligations.NormalStopsHalt : Prop :=
  (∀ (s : State), s.eng = .ready → s.cfg.fetchSource = .stream → s.code.length ≤ s.pc.toNat →
    step s = .next { s with stop := some .endOfStream, eng := .halted }) ∧
  (∀ (s : State) (opc : Byte), s.eng = .ready → beyondCode s (s.pc.toNat + 1) = false → fetchByte s s.pc = .ok opc →
    opc ∈ s.cfg.haltOpcodes → step s = .next { s with stop := some (.haltOpcode opc s.pc), eng := .halted }) ∧
  (∀ (s t : State), s.recordsAgree → step s = .next t → t.stop.isSome = true → t.fault = none)

/-- OutOfBoundsAddress of a fetch (R503, R509): in memory mode under OOB_POLICY = error, an opcode address, or an operand
address of an admitted opcode, at or beyond MEM_SIZE halts with that address; the opcode's address comes first. The order
of the checks is the spec's decision D5 (notes/assumptions/11.md). -/
def Obligations.FetchOutOfBoundsHalts : Prop :=
  ∀ (s : State), s.eng = .ready → s.cfg.fetchSource = .memory → s.cfg.oobPolicy = .error →
    (s.cfg.memSize.bytes ≤ s.pc.toNat →
      step s = .next { s with fault := some (.outOfBoundsAddress s.pc), eng := .halted }) ∧
    (∀ (opc : Byte) (cell : Template), memRead s s.pc = .ok opc → classify s.cfg opc = .admitted cell →
      2 ≤ cell.length → s.cfg.memSize.bytes ≤ (s.pc + 1).toNat →
      step s = .next { s with fault := some (.outOfBoundsAddress (s.pc + 1)), eng := .halted }) ∧
    (∀ (opc b1 : Byte) (cell : Template), memRead s s.pc = .ok opc → classify s.cfg opc = .admitted cell →
      cell.length = 3 → memRead s (s.pc + 1) = .ok b1 → s.cfg.memSize.bytes ≤ (s.pc + 2).toNat →
      step s = .next { s with fault := some (.outOfBoundsAddress (s.pc + 2)), eng := .halted })

/-- Fetch (R70) and its coherence (R82). In stream mode a fetch below CODE_LEN gives the byte of CODE there, and no content of
data memory changes what a step fetches. In memory mode a fetch is MemRead of the address, with the same error, and no content
of CODE changes what a step fetches. The two fetch sources are the spec's decision D2 (notes/assumptions/11.md). -/
def Obligations.FetchReadsOnlyItsSource : Prop :=
  (∀ (s : State), s.cfg.fetchSource = .stream →
    (∀ (a : Addr) (h : a.toNat < s.code.length), fetchByte s a = .ok s.code[a.toNat]) ∧
    (∀ (m : Memory), fetchInstr { s with mem := m } = fetchInstr s)) ∧
  (∀ (s : State), s.cfg.fetchSource = .memory →
    (∀ (a : Addr), fetchByte s a = memRead s a) ∧
    (∀ (c : List Byte), fetchInstr { s with code := c } = fetchInstr s))

/-! ## Memory and addressing -/

/-- `Map` (R64): an address below MEM_SIZE is its own index; one at or beyond it wraps, or raises OutOfBoundsAddress. With
MEM_SIZE = 65536 it is the identity. The two policies are the spec's decision D4 (notes/assumptions/11.md). -/
def Obligations.MapFollowsPolicy : Prop :=
  ∀ (cfg : Config) (a : Addr),
    (a.toNat < cfg.memSize.bytes → mapAddr cfg a = .ok a.toNat) ∧
    (cfg.memSize.bytes ≤ a.toNat → cfg.oobPolicy = .wrap → mapAddr cfg a = .ok (a.toNat % cfg.memSize.bytes)) ∧
    (cfg.memSize.bytes ≤ a.toNat → cfg.oobPolicy = .error →
      mapAddr cfg a = .error (.raise (.outOfBoundsAddress a))) ∧
    (cfg.memSize = .b65536 → mapAddr cfg a = .ok a.toNat)

/-- MemWrite changes the byte written and no other (R66), and a read returns the most recent write to its index (R80). -/
def Obligations.ReadAfterWrite : Prop :=
  ∀ (s t : State) (a b : Addr) (v : Byte) (i j : Nat), s.mem.wf → memWrite s a v = .ok t →
    mapAddr s.cfg a = .ok i → mapAddr s.cfg b = .ok j →
    memRead t b = .ok (if i = j then v else s.mem.get j)

/-- Aliasing (R67): under OOB_POLICY = wrap, addresses equal modulo MEM_SIZE read the same byte, and a write through one is
seen by a read through the other. -/
def Obligations.AliasedAddressesNameOneByte : Prop :=
  ∀ (s : State) (a b : Addr) (v : Byte), s.mem.wf → s.cfg.oobPolicy = .wrap →
    a.toNat % s.cfg.memSize.bytes = b.toNat % s.cfg.memSize.bytes →
    memRead s a = memRead s b ∧ ∃ t, memWrite s a v = .ok t ∧ memRead t b = .ok v

/-- Push (R370): write at 0x0100 + SP, then decrement SP modulo 256. It never raises OutOfBoundsAddress. That it never
raises is the spec's own derivation in R370. -/
def Obligations.PushWritesThenDecrements : Prop :=
  ∀ (s : State) (v : Byte),
    push s v = .ok { s with mem := s.mem.set (256 + s.sp.toNat) v, sp := BitVec.ofNat 8 ((s.sp.toNat + 255) % 256) }

/-- Pull (R371): increment SP modulo 256, then read at 0x0100 + SP. It never raises OutOfBoundsAddress. The order of the
pull is the spec's decision D11 and its conflict C1 (notes/assumptions/12.md). -/
def Obligations.PullIncrementsThenReads : Prop :=
  ∀ (s : State),
    pull s = .ok (s.mem.get (256 + (s.sp.toNat + 1) % 256), { s with sp := BitVec.ofNat 8 ((s.sp.toNat + 1) % 256) })

/-- A pull returns the most recent push and restores SP (R371, C1). It rests on the spec's decision D11
(notes/assumptions/12.md). -/
def Obligations.PullReturnsTheLastPush : Prop :=
  ∀ (s t : State) (v : Byte), s.mem.wf → push s v = .ok t → ∃ u, pull t = .ok (v, u) ∧ u.sp = s.sp ∧ u.mem = t.mem

/-- The packed status byte (R39): N V 1 b D I Z C from bit 7 down to bit 0; unpacking ignores bits 5 and 4 and leaves P.B
unchanged. The layout is from the spec's general knowledge, decision D17 (notes/assumptions/12.md). -/
def Obligations.PackedStatusLayout : Prop :=
  ∀ (p : Flags) (b : Bool) (v : Byte),
    ((packP p b).getLsbD 7 = p.n ∧ (packP p b).getLsbD 6 = p.v ∧ (packP p b).getLsbD 5 = true ∧
     (packP p b).getLsbD 4 = b ∧ (packP p b).getLsbD 3 = p.d ∧ (packP p b).getLsbD 2 = p.i ∧
     (packP p b).getLsbD 1 = p.z ∧ (packP p b).getLsbD 0 = p.c) ∧
    unpackP p v = { n := v.getLsbD 7, v := v.getLsbD 6, d := v.getLsbD 3, i := v.getLsbD 2, z := v.getLsbD 1,
                    c := v.getLsbD 0, b := p.b }

/-- The effective addresses (R114 to R120), as numbers: the zero-page modes wrap within page 0, the absolute modes at 16
bits, the pointers of (zp,X) and (zp),Y within page 0. None of them can fail. The page-0 wrap of the (zp),Y pointer is the
spec's decision D13 (notes/assumptions/12.md). -/
def Obligations.EffectiveAddressOfEachMode : Prop :=
  ∀ (s : State) (b : Byte) (w : Addr),
    (∃ ea, effAddr (.zp b) s = .ok ea ∧ ea.toNat = b.toNat) ∧
    (∃ ea, effAddr (.zpX b) s = .ok ea ∧ ea.toNat = (b.toNat + s.x.toNat) % 256) ∧
    (∃ ea, effAddr (.zpY b) s = .ok ea ∧ ea.toNat = (b.toNat + s.y.toNat) % 256) ∧
    (∃ ea, effAddr (.abs w) s = .ok ea ∧ ea.toNat = w.toNat) ∧
    (∃ ea, effAddr (.absX w) s = .ok ea ∧ ea.toNat = (w.toNat + s.x.toNat) % 65536) ∧
    (∃ ea, effAddr (.absY w) s = .ok ea ∧ ea.toNat = (w.toNat + s.y.toNat) % 65536) ∧
    (∃ ea, effAddr (.indX b) s = .ok ea ∧
      ea.toNat = (s.mem.get ((b.toNat + s.x.toNat + 1) % 256)).toNat * 256 + (s.mem.get ((b.toNat + s.x.toNat) % 256)).toNat) ∧
    (∃ ea, effAddr (.indY b) s = .ok ea ∧
      ea.toNat = ((s.mem.get ((b.toNat + 1) % 256)).toNat * 256 + (s.mem.get b.toNat).toNat + s.y.toNat) % 65536)

/-! ## Frames over all instructions -/

/-- Which instructions may change A, X, Y and SP (R31); a shift or rotate writes A only in its accumulator form. -/
def Obligations.RegistersChangeOnlyWhereListed : Prop :=
  ∀ (i : Instr) (s t : State), exec i s = .next t →
    (t.a ≠ s.a → i.mnemonic ∈ ([.lda, .pla, .txa, .tya, .adc, .sbc, .sbcU, .and, .ora, .eor, .lax, .slo, .rla, .sre, .rra,
        .isb] : List Mnemonic) ∨
      (i.mnemonic ∈ ([.asl, .lsr, .rol, .ror] : List Mnemonic) ∧ i.operand = .accumulator)) ∧
    (t.x ≠ s.x → i.mnemonic ∈ ([.ldx, .tax, .tsx, .inx, .dex, .lax] : List Mnemonic)) ∧
    (t.y ≠ s.y → i.mnemonic ∈ ([.ldy, .tay, .iny, .dey] : List Mnemonic)) ∧
    (t.sp ≠ s.sp → i.mnemonic ∈ ([.txs, .pha, .php, .pla, .plp, .jsr, .rts, .brk, .rti] : List Mnemonic))

/-- Which instructions may change each flag (R41). -/
def Obligations.FlagsChangeOnlyWhereListed : Prop :=
  ∀ (i : Instr) (s t : State), exec i s = .next t →
    (t.p.c ≠ s.p.c → i.mnemonic ∈ ([.adc, .sbc, .sbcU, .cmp, .cpx, .cpy, .asl, .lsr, .rol, .ror, .clc, .sec, .plp, .rti, .slo,
        .rla, .sre, .rra, .dcp, .isb] : List Mnemonic)) ∧
    ((t.p.z ≠ s.p.z ∨ t.p.n ≠ s.p.n) → i.mnemonic ∈ ([.lda, .ldx, .ldy, .tax, .tay, .txa, .tya, .tsx, .pla, .inc, .dec, .inx,
        .iny, .dex, .dey, .adc, .sbc, .sbcU, .and, .ora, .eor, .cmp, .cpx, .cpy, .bit, .asl, .lsr, .rol, .ror, .plp, .rti,
        .lax, .slo, .rla, .sre, .rra, .dcp, .isb] : List Mnemonic)) ∧
    (t.p.v ≠ s.p.v → i.mnemonic ∈ ([.adc, .sbc, .sbcU, .bit, .clv, .plp, .rti, .rra, .isb] : List Mnemonic)) ∧
    (t.p.i ≠ s.p.i → i.mnemonic ∈ ([.cli, .sei, .brk, .plp, .rti] : List Mnemonic)) ∧
    (t.p.d ≠ s.p.d → i.mnemonic ∈ ([.cld, .sed, .plp, .rti] : List Mnemonic)) ∧
    t.p.b = s.p.b

/-- A form that stores nothing leaves every byte of memory as it was (R72): every read afterwards gives what it gave before.
The storing forms are the stores, the read-modify-write memory forms, PHA, PHP, JSR and BRK. -/
def Obligations.NonStoringFormsKeepMemory : Prop :=
  ∀ (i : Instr) (s t : State), exec i s = .next t →
    i.mnemonic ∉ ([.sta, .stx, .sty, .sax, .inc, .dec, .slo, .rla, .sre, .rra, .dcp, .isb, .pha, .php, .jsr, .brk] :
      List Mnemonic) →
    (i.mnemonic ∈ ([.asl, .lsr, .rol, .ror] : List Mnemonic) → i.operand = .accumulator) →
    ∀ a : Addr, memRead t a = memRead s a

/-- A storing memory form changes the byte at its effective address and no other (R66, R72): every address that Map does not
send to the same index reads as before. -/
def Obligations.StoringFormsChangeOnlyTheirByte : Prop :=
  ∀ (i : Instr) (s t : State) (m : Mnemonic) (mode : MemMode), exec i s = .next t → i.triple = (m, .memory mode) →
    m ∈ ([.sta, .stx, .sty, .sax, .inc, .dec, .asl, .lsr, .rol, .ror, .slo, .rla, .sre, .rra, .dcp, .isb] : List Mnemonic) →
    ∀ (ea a : Addr), effAddr mode s = .ok ea → mapAddr s.cfg a ≠ mapAddr s.cfg ea → memRead t a = memRead s a

/-- The stack pushes change only their own bytes of the stack page (R72, R370): one for PHA and PHP, two for JSR, three for
BRK, from 0x0100 + SP downward modulo 256. -/
def Obligations.PushingFormsChangeOnlyTheirSlots : Prop :=
  ∀ (i : Instr) (s t : State) (n : Nat), exec i s = .next t →
    ((i.mnemonic ∈ ([.pha, .php] : List Mnemonic) ∧ n = 1) ∨ (i.mnemonic = .jsr ∧ n = 2) ∨ (i.mnemonic = .brk ∧ n = 3)) →
    ∀ a : Addr, (∀ k < n, mapAddr s.cfg a ≠ .ok (stackIndex (s.sp - BitVec.ofNat 8 k))) → memRead t a = memRead s a

/-- The next PC (R34): a completed instruction other than a branch, JMP, JSR, RTS, BRK or RTI sets PC to `w16(a + L)`. -/
def Obligations.SequentialInstructionsAdvanceByLength : Prop :=
  ∀ (i : Instr) (s t : State), exec i s = .next t → s.eng = .ready → t.eng = .ready →
    i.mnemonic ∉ ([.bpl, .bmi, .bvc, .bvs, .bcc, .bcs, .bne, .beq, .jmp, .jsr, .rts, .brk, .rti] : List Mnemonic) →
    t.pc.toNat = (s.pc.toNat + (encode i).length) % 65536

/-! ## Results, instruction by instruction -/

/-- LDA, LDX, LDY and LAX (R200, R201, R202, R407), every form: the register takes the operand, Z and N follow it. LAX is
from the spec's general knowledge (notes/assumptions/12.md). -/
def Obligations.LoadsTakeTheOperand : Prop :=
  ∀ (i : Instr) (s : State) (src : Source) (v : Byte), readSource src s = .ok v →
    (i.triple = (.lda, src.operand) → exec i s = .next { s with a := v, p := withZN s.p v, pc := nextPC s i }) ∧
    (i.triple = (.ldx, src.operand) → exec i s = .next { s with x := v, p := withZN s.p v, pc := nextPC s i }) ∧
    (i.triple = (.ldy, src.operand) → exec i s = .next { s with y := v, p := withZN s.p v, pc := nextPC s i }) ∧
    (i.triple = (.lax, src.operand) → exec i s = .next { s with a := v, x := v, p := withZN s.p v, pc := nextPC s i })

/-- STA, STX, STY and SAX (R203, R204, R205, R408), every form: the byte at EA takes A, X, Y or A AND X; no flag changes.
SAX is from the spec's general knowledge (notes/assumptions/12.md). -/
def Obligations.StoresWriteTheRegister : Prop :=
  ∀ (i : Instr) (s : State) (mode : MemMode) (ea : Addr) (k : Nat), effAddr mode s = .ok ea → mapAddr s.cfg ea = .ok k →
    (i.triple = (.sta, .memory mode) → exec i s = .next { s with mem := s.mem.set k s.a, pc := nextPC s i }) ∧
    (i.triple = (.stx, .memory mode) → exec i s = .next { s with mem := s.mem.set k s.x, pc := nextPC s i }) ∧
    (i.triple = (.sty, .memory mode) → exec i s = .next { s with mem := s.mem.set k s.y, pc := nextPC s i }) ∧
    (i.triple = (.sax, .memory mode) → exec i s = .next { s with mem := s.mem.set k (s.a &&& s.x), pc := nextPC s i })

/-- INC and DEC (R220, R221), every form: the byte at EA changes by one modulo 256, Z and N follow it. -/
def Obligations.IncrementAndDecrementMemory : Prop :=
  ∀ (i : Instr) (s : State) (mode : MemMode) (ea : Addr) (k : Nat) (r : Byte),
    effAddr mode s = .ok ea → mapAddr s.cfg ea = .ok k →
    (i.triple = (.inc, .memory mode) → r.toNat = ((s.mem.get k).toNat + 1) % 256 →
      exec i s = .next { s with mem := s.mem.set k r, p := withZN s.p r, pc := nextPC s i }) ∧
    (i.triple = (.dec, .memory mode) → r.toNat = ((s.mem.get k).toNat + 255) % 256 →
      exec i s = .next { s with mem := s.mem.set k r, p := withZN s.p r, pc := nextPC s i })

/-- INC then DEC with one operand, every form (R220, R221): the whole memory is restored, and the flags reflect the restored
byte. -/
def Obligations.IncrementThenDecrementRestores : Prop :=
  ∀ (i j : Instr) (s : State) (mode : MemMode) (ea : Addr) (k : Nat), s.mem.wf →
    i.triple = (.inc, .memory mode) → j.triple = (.dec, .memory mode) → effAddr mode s = .ok ea → mapAddr s.cfg ea = .ok k →
    ∃ t u, exec i s = .next t ∧ exec j t = .next u ∧ u = { s with p := withZN s.p (s.mem.get k), pc := nextPC t j }

/-- INX, INY, DEX and DEY (R222 to R225): the register changes by one modulo 256, Z and N follow it. -/
def Obligations.IncrementAndDecrementRegisters : Prop :=
  ∀ (s : State) (r : Byte),
    (r.toNat = (s.x.toNat + 1) % 256 → exec .inx s = .next { s with x := r, p := withZN s.p r, pc := s.pc + 1 }) ∧
    (r.toNat = (s.y.toNat + 1) % 256 → exec .iny s = .next { s with y := r, p := withZN s.p r, pc := s.pc + 1 }) ∧
    (r.toNat = (s.x.toNat + 255) % 256 → exec .dex s = .next { s with x := r, p := withZN s.p r, pc := s.pc + 1 }) ∧
    (r.toNat = (s.y.toNat + 255) % 256 → exec .dey s = .next { s with y := r, p := withZN s.p r, pc := s.pc + 1 })

/-- CMP, CPX and CPY (R240 to R243), every form: C iff register >= operand unsigned, Z iff equal, N bit 7 of the wrapped
difference; no register changes. -/
def Obligations.ComparesSetCarryZeroNegative : Prop :=
  ∀ (i : Instr) (s : State) (src : Source) (v r : Byte), readSource src s = .ok v →
    ((i.triple = (.cmp, src.operand) ∧ r = s.a) ∨ (i.triple = (.cpx, src.operand) ∧ r = s.x) ∨
      (i.triple = (.cpy, src.operand) ∧ r = s.y)) →
    exec i s = .next { s with pc := nextPC s i, p := { s.p with
      c := decide (v.toNat ≤ r.toNat), z := decide (r.toNat = v.toNat),
      n := (BitVec.ofNat 8 ((r.toNat + 256 - v.toNat) % 256)).getLsbD 7 } }

/-- BIT (R244): Z from A AND operand, N and V from bits 7 and 6 of the operand; A is unchanged. BIT is from the spec's
general knowledge (notes/assumptions/12.md). -/
def Obligations.BitTestSetsZeroNegativeOverflow : Prop :=
  ∀ (i : Instr) (s : State) (mode : MemMode) (v : Byte), readSource (.mem mode) s = .ok v →
    i.triple = (.bit, .memory mode) →
    exec i s = .next { s with pc := nextPC s i, p := { s.p with
      z := decide ((s.a &&& v).toNat = 0), n := v.getLsbD 7, v := v.getLsbD 6 } }

/-- AND, ORA and EOR (R260, R261, R262), every form: A takes the bitwise result, Z and N follow it. -/
def Obligations.LogicalOperationsOnA : Prop :=
  ∀ (i : Instr) (s : State) (src : Source) (v : Byte), readSource src s = .ok v →
    (i.triple = (.and, src.operand) →
      exec i s = .next { s with a := s.a &&& v, p := withZN s.p (s.a &&& v), pc := nextPC s i }) ∧
    (i.triple = (.ora, src.operand) →
      exec i s = .next { s with a := s.a ||| v, p := withZN s.p (s.a ||| v), pc := nextPC s i }) ∧
    (i.triple = (.eor, src.operand) →
      exec i s = .next { s with a := s.a ^^^ v, p := withZN s.p (s.a ^^^ v), pc := nextPC s i })

/-- AddCore (R280): the low byte of the integer sum, the carry-out, and the overflow as the bit pattern of the rule; V is
1 exactly when the signed sum lies outside -128..127. The adder is from the spec's general knowledge
(notes/assumptions/12.md). -/
def Obligations.AddCoreSumCarryOverflow : Prop :=
  ∀ (x m : Byte) (cin : Bool),
    (addCore x m cin).res.toNat = (x.toNat + m.toNat + cin.toNat) % 256 ∧
    (addCore x m cin).cout = decide (256 ≤ x.toNat + m.toNat + cin.toNat) ∧
    (addCore x m cin).vout = (!(x.getLsbD 7 ^^ m.getLsbD 7) && (x.getLsbD 7 ^^ (addCore x m cin).res.getLsbD 7)) ∧
    ((addCore x m cin).vout = true ↔ x.toInt + m.toInt + cin.toNat < -128 ∨ 127 < x.toInt + m.toInt + cin.toNat)

/-- ADC (R281), every form, in binary (R283): A takes A + op + C modulo 256, C the carry-out, V the signed overflow. ADC
is from the spec's general knowledge, binary mode its decision D7 (notes/assumptions/11.md, 12.md). -/
def Obligations.AddWithCarry : Prop :=
  ∀ (i : Instr) (s : State) (src : Source) (v r : Byte), readSource src s = .ok v → ¬ s.decimalRefused →
    i.triple = (.adc, src.operand) → r.toNat = (s.a.toNat + v.toNat + s.p.c.toNat) % 256 →
    exec i s = .next { s with a := r, pc := nextPC s i, p := { withZN s.p r with
      c := decide (256 ≤ s.a.toNat + v.toNat + s.p.c.toNat),
      v := decide (s.a.toInt + v.toInt + s.p.c.toNat < -128 ∨ 127 < s.a.toInt + v.toInt + s.p.c.toNat) } }

/-- SBC and its duplicate *SBC (R282, R409), every form, in binary (R283): A takes A - op - (1 - C) modulo 256, C = 1
means no borrow, V the signed overflow. SBC is from the spec's general knowledge, binary mode its decision D7
(notes/assumptions/11.md, 12.md). -/
def Obligations.SubtractWithBorrow : Prop :=
  ∀ (i : Instr) (s : State) (src : Source) (v r : Byte), readSource src s = .ok v → ¬ s.decimalRefused →
    (i.triple = (.sbc, src.operand) ∨ i.triple = (.sbcU, src.operand)) →
    (r.toNat : Int) = ((s.a.toNat : Int) - v.toNat - (1 - s.p.c.toNat)) % 256 →
    exec i s = .next { s with a := r, pc := nextPC s i, p := { withZN s.p r with
      c := decide (0 ≤ (s.a.toNat : Int) - v.toNat - (1 - s.p.c.toNat)),
      v := decide (s.a.toInt - v.toInt - (1 - s.p.c.toNat) < -128 ∨ 127 < s.a.toInt - v.toInt - (1 - s.p.c.toNat)) } }

/-- The decimal refusal (R283, R508, R509): with DECIMAL_MODE = refuse and D = 1, ADC, SBC, *SBC, RRA and ISB set REFUSED
and halt, whatever their operand, and change nothing else. No other instruction and no other setting refuses. The refusal
is the spec's decision D7 (notes/assumptions/11.md). -/
def Obligations.DecimalArithmeticIsRefusedExactlyWhenSelected : Prop :=
  ∀ (i : Instr) (s : State),
    (i.mnemonic ∈ ([.adc, .sbc, .sbcU, .rra, .isb] : List Mnemonic) → s.decimalRefused →
      exec i s = .next { s with refused := true, eng := .halted }) ∧
    ((i.mnemonic ∉ ([.adc, .sbc, .sbcU, .rra, .isb] : List Mnemonic) ∨ ¬ s.decimalRefused) →
      ∀ t, exec i s = .next t → t.refused = s.refused)

/-- ASL, LSR, ROL and ROR of the accumulator (R300 to R304), with the rotates through C. The shifts are from the spec's
general knowledge (notes/assumptions/12.md). -/
def Obligations.AccumulatorShifts : Prop :=
  ∀ (s : State) (r : Byte),
    (r.toNat = 2 * s.a.toNat % 256 →
      exec .aslAcc s = .next { s with a := r, pc := s.pc + 1, p := { withZN s.p r with c := s.a.getLsbD 7 } }) ∧
    (r.toNat = s.a.toNat / 2 →
      exec .lsrAcc s = .next { s with a := r, pc := s.pc + 1, p := { withZN s.p r with c := s.a.getLsbD 0 } }) ∧
    (r.toNat = (2 * s.a.toNat + s.p.c.toNat) % 256 →
      exec .rolAcc s = .next { s with a := r, pc := s.pc + 1, p := { withZN s.p r with c := s.a.getLsbD 7 } }) ∧
    (r.toNat = s.a.toNat / 2 + 128 * s.p.c.toNat →
      exec .rorAcc s = .next { s with a := r, pc := s.pc + 1, p := { withZN s.p r with c := s.a.getLsbD 0 } })

/-- ASL, LSR, ROL and ROR of memory (R300 to R304), every memory form: the byte at EA is shifted, A is unchanged. The
shifts are from the spec's general knowledge (notes/assumptions/12.md). -/
def Obligations.MemoryShifts : Prop :=
  ∀ (i : Instr) (s : State) (mode : MemMode) (ea : Addr) (k : Nat) (r : Byte),
    effAddr mode s = .ok ea → mapAddr s.cfg ea = .ok k →
    (i.triple = (.asl, .memory mode) → r.toNat = 2 * (s.mem.get k).toNat % 256 →
      exec i s = .next { s with mem := s.mem.set k r, pc := nextPC s i, p := { withZN s.p r with
        c := (s.mem.get k).getLsbD 7 } }) ∧
    (i.triple = (.lsr, .memory mode) → r.toNat = (s.mem.get k).toNat / 2 →
      exec i s = .next { s with mem := s.mem.set k r, pc := nextPC s i, p := { withZN s.p r with
        c := (s.mem.get k).getLsbD 0 } }) ∧
    (i.triple = (.rol, .memory mode) → r.toNat = (2 * (s.mem.get k).toNat + s.p.c.toNat) % 256 →
      exec i s = .next { s with mem := s.mem.set k r, pc := nextPC s i, p := { withZN s.p r with
        c := (s.mem.get k).getLsbD 7 } }) ∧
    (i.triple = (.ror, .memory mode) → r.toNat = (s.mem.get k).toNat / 2 + 128 * s.p.c.toNat →
      exec i s = .next { s with mem := s.mem.set k r, pc := nextPC s i, p := { withZN s.p r with
        c := (s.mem.get k).getLsbD 0 } })

/-- The eight branches (R320 to R328, R121): taken iff the flag has the stated value, to `w16(a + 2 + sext_8(b1))`; otherwise
PC = `w16(a + 2)`. No flag changes. -/
def Obligations.BranchesFollowTheirFlag : Prop :=
  ∀ (s : State) (off : Byte) (target : Addr), (target.toNat : Int) = ((s.pc.toNat : Int) + 2 + off.toInt) % 65536 →
    exec (.bpl off) s = .next { s with pc := if s.p.n = false then target else s.pc + 2 } ∧
    exec (.bmi off) s = .next { s with pc := if s.p.n = true then target else s.pc + 2 } ∧
    exec (.bvc off) s = .next { s with pc := if s.p.v = false then target else s.pc + 2 } ∧
    exec (.bvs off) s = .next { s with pc := if s.p.v = true then target else s.pc + 2 } ∧
    exec (.bcc off) s = .next { s with pc := if s.p.c = false then target else s.pc + 2 } ∧
    exec (.bcs off) s = .next { s with pc := if s.p.c = true then target else s.pc + 2 } ∧
    exec (.bne off) s = .next { s with pc := if s.p.z = false then target else s.pc + 2 } ∧
    exec (.beq off) s = .next { s with pc := if s.p.z = true then target else s.pc + 2 }

/-- JMP absolute (R340) goes to its operand, wherever that lies. JMP indirect (R341) takes the low byte at the pointer and
the high byte from the next address of the pointer's own page; a pointer that Map rejects halts with its address. JMP
indirect is from the spec's general knowledge, decision D13 (notes/assumptions/12.md). -/
def Obligations.JumpsSetPC : Prop :=
  ∀ (s : State) (w ptr ptrHi : Addr),
    exec (.jmpAbs w) s = .next { s with pc := w } ∧
    (ptrHi.toNat = ptr.toNat / 256 * 256 + (ptr.toNat + 1) % 256 →
      (∀ lo hi, memRead s ptr = .ok lo → memRead s ptrHi = .ok hi →
        exec (.jmpInd ptr) s = .next { s with pc := BitVec.ofNat 16 (hi.toNat * 256 + lo.toNat) }) ∧
      (∀ e, memRead s ptr = .error (.raise e) →
        e = .outOfBoundsAddress ptr ∧
        exec (.jmpInd ptr) s = .next { s with fault := some (.outOfBoundsAddress ptr), eng := .halted }))

/-- JSR (R342): push `w16(a + 2)`, high byte first, and go to the operand. The order of the two pushes is from the spec's
general knowledge (notes/assumptions/12.md). -/
def Obligations.JumpToSubroutine : Prop :=
  ∀ (s : State) (w : Addr) (hi lo : Byte), hi.toNat * 256 + lo.toNat = (s.pc.toNat + 2) % 65536 →
    exec (.jsrAbs w) s = .next { s with
      mem := (s.mem.set (stackIndex s.sp) hi).set (stackIndex (s.sp - 1)) lo, sp := s.sp - 2, pc := w }

/-- RTS (R343): pull the low then the high byte; PC is their 16-bit value plus one. RTS is from the spec's general
knowledge (notes/assumptions/12.md). -/
def Obligations.ReturnFromSubroutine : Prop :=
  ∀ (s : State), exec .rts s = .next { s with
    sp := s.sp + 2,
    pc := BitVec.ofNat 16 ((s.mem.get (stackIndex (s.sp + 2))).toNat * 256 +
      (s.mem.get (stackIndex (s.sp + 1))).toNat + 1) }

/-- JSR then RTS (R344): if SP and the stack page are as JSR left them, RTS restores PC to `w16(a_JSR + 3)` and SP to its
value before the JSR. RTS is from the spec's general knowledge (notes/assumptions/12.md). -/
def Obligations.CallThenReturnRestores : Prop :=
  ∀ (s t u : State) (w : Addr), s.mem.wf → exec (.jsrAbs w) s = .next t → u.sp = t.sp →
    (∀ sp : Byte, u.mem.get (stackIndex sp) = t.mem.get (stackIndex sp)) →
    ∃ v, exec .rts u = .next v ∧ v.pc = s.pc + 3 ∧ v.sp = s.sp

/-- BRK (R346, R511): push `w16(a + 2)` high byte first and the packed status with bits 5 and 4 set, set I, and take PC
from the vector, read after the pushes. P.B, D and the other flags are unchanged. A vector outside memory is
OutOfBoundsAddress(0xFFFE), with the pushes discarded. BRK is from the spec's general knowledge, decisions D12 and D14
(notes/assumptions/12.md). -/
def Obligations.BreakTakesTheTrap : Prop :=
  ∀ (s : State) (hi lo : Byte) (i j : Nat) (m : Memory), hi.toNat * 256 + lo.toNat = (s.pc.toNat + 2) % 65536 →
    m = ((s.mem.set (stackIndex s.sp) hi).set (stackIndex (s.sp - 1)) lo).set (stackIndex (s.sp - 2)) (packP s.p true) →
    (mapAddr s.cfg 0xFFFE = .ok i → mapAddr s.cfg 0xFFFF = .ok j →
      exec .brk s = .next { s with
        mem := m, sp := s.sp - 3, p := { s.p with i := true },
        pc := BitVec.ofNat 16 ((m.get j).toNat * 256 + (m.get i).toNat) }) ∧
    (s.cfg.oobPolicy = .error → s.cfg.memSize ≠ .b65536 →
      exec .brk s = .next { s with fault := some (.outOfBoundsAddress 0xFFFE), eng := .halted })

/-- RTI (R347, R512): the flags but B are pulled first, then PC, with no increment. RTI is from the spec's general
knowledge (notes/assumptions/12.md). -/
def Obligations.ReturnFromInterrupt : Prop :=
  ∀ (s : State) (v : Byte), v = s.mem.get (stackIndex (s.sp + 1)) →
    exec .rti s = .next { s with
      sp := s.sp + 3,
      p := { s.p with c := v.getLsbD 0, z := v.getLsbD 1, i := v.getLsbD 2, d := v.getLsbD 3, v := v.getLsbD 6,
                      n := v.getLsbD 7 },
      pc := BitVec.ofNat 16 ((s.mem.get (stackIndex (s.sp + 3))).toNat * 256 +
        (s.mem.get (stackIndex (s.sp + 2))).toNat) }

/-- RTI after a BRK at address a, with SP and the stack page as BRK left them (R347): every flag but B, SP and PC = w16(a
+ 2) are restored. BRK and RTI are from the spec's general knowledge (notes/assumptions/12.md). -/
def Obligations.BreakThenReturnRestores : Prop :=
  ∀ (s t u : State), s.mem.wf → s.eng = .ready → exec .brk s = .next t → t.eng = .ready → u.sp = t.sp →
    (∀ sp : Byte, u.mem.get (stackIndex sp) = t.mem.get (stackIndex sp)) →
    ∃ v, exec .rti u = .next v ∧ v.pc = s.pc + 2 ∧ v.sp = s.sp ∧ v.p = { s.p with b := u.p.b }

/-- PHA, PHP, PLA and PLP (R372 to R375). PHP pushes the packed status with bits 5 and 4 set; PLP leaves B unchanged. The
packed byte is from the spec's general knowledge (notes/assumptions/12.md). -/
def Obligations.StackInstructions : Prop :=
  ∀ (s : State) (v : Byte),
    exec .pha s = .next { s with mem := s.mem.set (stackIndex s.sp) s.a, sp := s.sp - 1, pc := s.pc + 1 } ∧
    exec .php s = .next { s with mem := s.mem.set (stackIndex s.sp) (packP s.p true), sp := s.sp - 1, pc := s.pc + 1 } ∧
    (v = s.mem.get (stackIndex (s.sp + 1)) →
      exec .pla s = .next { s with a := v, sp := s.sp + 1, p := withZN s.p v, pc := s.pc + 1 } ∧
      exec .plp s = .next { s with
        sp := s.sp + 1, pc := s.pc + 1,
        p := { s.p with c := v.getLsbD 0, z := v.getLsbD 1, i := v.getLsbD 2, d := v.getLsbD 3, v := v.getLsbD 6,
                        n := v.getLsbD 7 } })

/-- The register transfers (R380 to R385): Z and N follow the value, but TXS writes no flag. The transfers are from the
spec's general knowledge (notes/assumptions/12.md). -/
def Obligations.RegisterTransfers : Prop :=
  ∀ (s : State),
    exec .tax s = .next { s with x := s.a, p := withZN s.p s.a, pc := s.pc + 1 } ∧
    exec .tay s = .next { s with y := s.a, p := withZN s.p s.a, pc := s.pc + 1 } ∧
    exec .txa s = .next { s with a := s.x, p := withZN s.p s.x, pc := s.pc + 1 } ∧
    exec .tya s = .next { s with a := s.y, p := withZN s.p s.y, pc := s.pc + 1 } ∧
    exec .tsx s = .next { s with x := s.sp, p := withZN s.p s.sp, pc := s.pc + 1 } ∧
    exec .txs s = .next { s with sp := s.x, pc := s.pc + 1 }

/-- The flag instructions (R390 to R396): each writes one flag and no other. They are from the spec's general knowledge
(notes/assumptions/12.md). -/
def Obligations.FlagInstructions : Prop :=
  ∀ (s : State),
    exec .clc s = .next { s with p := { s.p with c := false }, pc := s.pc + 1 } ∧
    exec .sec s = .next { s with p := { s.p with c := true }, pc := s.pc + 1 } ∧
    exec .cli s = .next { s with p := { s.p with i := false }, pc := s.pc + 1 } ∧
    exec .sei s = .next { s with p := { s.p with i := true }, pc := s.pc + 1 } ∧
    exec .cld s = .next { s with p := { s.p with d := false }, pc := s.pc + 1 } ∧
    exec .sed s = .next { s with p := { s.p with d := true }, pc := s.pc + 1 } ∧
    exec .clv s = .next { s with p := { s.p with v := false }, pc := s.pc + 1 }

/-- NOP and the 27 *NOP variants (R397, R410): PC advances by L and nothing else changes, whatever the operand bytes and
the memory configuration. That the variants access no memory is the spec's decision D15 (notes/assumptions/11.md). -/
def Obligations.NoOperationsOnlyAdvance : Prop :=
  ∀ (i : Instr) (s : State), (i.mnemonic = .nop ∨ i.mnemonic = .nopU) →
    exec i s = .next { s with pc := nextPC s i }

/-- SLO, RLA and SRE (R400 to R403), every form: the byte at EA is shifted or rotated, A is combined with the result, C is
the bit shifted out, Z and N follow the new A. They are from the spec's general knowledge, but for SLO's composition
(notes/assumptions/12.md). -/
def Obligations.CombinedShiftAndLogical : Prop :=
  ∀ (i : Instr) (s : State) (mode : MemMode) (ea : Addr) (k : Nat) (r : Byte),
    effAddr mode s = .ok ea → mapAddr s.cfg ea = .ok k →
    (i.triple = (.slo, .memory mode) → r.toNat = 2 * (s.mem.get k).toNat % 256 →
      exec i s = .next { s with mem := s.mem.set k r, a := s.a ||| r, pc := nextPC s i, p := { withZN s.p (s.a ||| r) with
        c := (s.mem.get k).getLsbD 7 } }) ∧
    (i.triple = (.rla, .memory mode) → r.toNat = (2 * (s.mem.get k).toNat + s.p.c.toNat) % 256 →
      exec i s = .next { s with mem := s.mem.set k r, a := s.a &&& r, pc := nextPC s i, p := { withZN s.p (s.a &&& r) with
        c := (s.mem.get k).getLsbD 7 } }) ∧
    (i.triple = (.sre, .memory mode) → r.toNat = (s.mem.get k).toNat / 2 →
      exec i s = .next { s with mem := s.mem.set k r, a := s.a ^^^ r, pc := nextPC s i, p := { withZN s.p (s.a ^^^ r) with
        c := (s.mem.get k).getLsbD 0 } })

/-- RRA, ISB and DCP (R400, R404 to R406), every form, in binary: the byte at EA takes r; then RRA adds it to A with the
bit rotated out as carry-in, ISB subtracts it from A, and DCP compares A with it. They are from the spec's general
knowledge (notes/assumptions/12.md). -/
def Obligations.CombinedArithmetic : Prop :=
  ∀ (i : Instr) (s : State) (mode : MemMode) (ea : Addr) (k : Nat) (r q : Byte),
    effAddr mode s = .ok ea → mapAddr s.cfg ea = .ok k →
    (i.triple = (.rra, .memory mode) → ¬ s.decimalRefused → r.toNat = (s.mem.get k).toNat / 2 + 128 * s.p.c.toNat →
      q.toNat = (s.a.toNat + r.toNat + ((s.mem.get k).getLsbD 0).toNat) % 256 →
      exec i s = .next { s with mem := s.mem.set k r, a := q, pc := nextPC s i, p := { withZN s.p q with
        c := decide (256 ≤ s.a.toNat + r.toNat + ((s.mem.get k).getLsbD 0).toNat),
        v := decide (s.a.toInt + r.toInt + ((s.mem.get k).getLsbD 0).toNat < -128 ∨
          127 < s.a.toInt + r.toInt + ((s.mem.get k).getLsbD 0).toNat) } }) ∧
    (i.triple = (.isb, .memory mode) → ¬ s.decimalRefused → r.toNat = ((s.mem.get k).toNat + 1) % 256 →
      (q.toNat : Int) = ((s.a.toNat : Int) - r.toNat - (1 - s.p.c.toNat)) % 256 →
      exec i s = .next { s with mem := s.mem.set k r, a := q, pc := nextPC s i, p := { withZN s.p q with
        c := decide (0 ≤ (s.a.toNat : Int) - r.toNat - (1 - s.p.c.toNat)),
        v := decide (s.a.toInt - r.toInt - (1 - s.p.c.toNat) < -128 ∨ 127 < s.a.toInt - r.toInt - (1 - s.p.c.toNat)) } }) ∧
    (i.triple = (.dcp, .memory mode) → r.toNat = ((s.mem.get k).toNat + 255) % 256 →
      exec i s = .next { s with mem := s.mem.set k r, pc := nextPC s i, p := { s.p with
        c := decide (r.toNat ≤ s.a.toNat), z := decide (s.a.toNat = r.toNat),
        n := (BitVec.ofNat 8 ((s.a.toNat + 256 - r.toNat) % 256)).getLsbD 7 } })

/-- OutOfBoundsAddress of an operand (R503, R505, R509): every instruction with a memory operand, other than a NOP variant
and other than one the decimal refusal bars, JMP and JSR having none, halts with EA where Map rejects EA, and changes
nothing else. The order of the checks is the spec's decision D5 (notes/assumptions/11.md). -/
def Obligations.OperandOutOfBoundsHalts : Prop :=
  ∀ (i : Instr) (s : State) (mode : MemMode) (ea : Addr) (e : ErrorRecord), i.operand = .memory mode →
    i.mnemonic ∉ ([.nopU, .jmp, .jsr] : List Mnemonic) →
    (i.mnemonic ∈ ([.adc, .sbc, .rra, .isb] : List Mnemonic) → ¬ s.decimalRefused) →
    effAddr mode s = .ok ea → mapAddr s.cfg ea = .error (.raise e) →
    e = .outOfBoundsAddress ea ∧ exec i s = .next { s with fault := some (.outOfBoundsAddress ea), eng := .halted }

/-- The three error kinds, their cause codes and the information they record (R500): an error a step records is UnknownOpcode
(code 1) with the step's PC, TruncatedOperand (code 2) with the step's PC and in stream mode only, or OutOfBoundsAddress
(code 3) with an address at or beyond MEM_SIZE and under OOB_POLICY = error only. The codes and the recorded offsets are the
spec's decision D5 (notes/assumptions/11.md). -/
def Obligations.RecordedErrorsFitTheirCodes : Prop :=
  ∀ (s t : State) (e : ErrorRecord), s.fault = none → step s = .next t → t.fault = some e →
    (errorCode e = 1 ∧ ∃ opc : Byte, e = .unknownOpcode opc s.pc) ∨
    (errorCode e = 2 ∧ s.cfg.fetchSource = .stream ∧ e = .truncatedOperand s.pc) ∨
    (errorCode e = 3 ∧ s.cfg.oobPolicy = .error ∧
      ∃ a : Addr, e = .outOfBoundsAddress a ∧ s.cfg.memSize.bytes ≤ a.toNat)
end

