-- ==== Sys2Proof/Laws/PerInstr.lean ====
section
/-! SUPPORT. One lemma for each instruction about its place in the opcode map: the cell of its opcode, supplied with its operand
bytes, is the instruction (R101, R130). -/

namespace Sys2Proof.Laws

/-- The instruction a cell gives for the operand bytes, where their number is the cell's. -/
def fillCell : Template → List Byte → Option Instr
  | .one i, [] => some i
  | .two f, [b1] => some (f b1)
  | .three f, [b1, b2] => some (f (hiLo b2 b1))
  | _, _ => none

/-- The bytes of a 16-bit value, put together again, are the value. -/
theorem hiLo_hi8_lo8 (w : Addr) : hiLo (hi8 w) (lo8 w) = w := by
  apply BitVec.eq_of_getLsbD_eq
  intro k hk
  simp only [hiLo, hi8, lo8, BitVec.getLsbD_append, BitVec.getLsbD_extractLsb']
  by_cases h : k < 8
  · simp [h]
  · have h8 : k - 8 < 8 := by omega
    have hsum : 8 + (k - 8) = k := by omega
    simp [h, h8, hsum]

/-- The instruction's cell, filled with its operand bytes, is the instruction, and has the length of its mode. -/
def TableRow.Statement (i : Instr) : Prop :=
  ∃ cell, tableCell i.opcode = some cell ∧ cell.length = i.length ∧ fillCell cell i.operand.bytes = some i

theorem tableRow_of {i : Instr} (opc : Byte) (cell : Template) (hopc : i.opcode = opc)
    (hcell : tableCell opc = some cell) (hlen : cell.length = i.length)
    (hfill : fillCell cell i.operand.bytes = some i) : TableRow.Statement i :=
  ⟨cell, hopc ▸ hcell, hlen, hfill⟩

theorem TableRow.ldaIndX (b : Byte) : TableRow.Statement (.ldaIndX b) := tableRow_of 0xA1 (.two .ldaIndX) rfl rfl rfl rfl
theorem TableRow.ldaZp (b : Byte) : TableRow.Statement (.ldaZp b) := tableRow_of 0xA5 (.two .ldaZp) rfl rfl rfl rfl
theorem TableRow.ldaImm (b : Byte) : TableRow.Statement (.ldaImm b) := tableRow_of 0xA9 (.two .ldaImm) rfl rfl rfl rfl
theorem TableRow.ldaAbs (w : Addr) : TableRow.Statement (.ldaAbs w) :=
  tableRow_of 0xAD (.three .ldaAbs) rfl rfl rfl (congrArg (fun v => some (Instr.ldaAbs v)) (hiLo_hi8_lo8 w))
theorem TableRow.ldaIndY (b : Byte) : TableRow.Statement (.ldaIndY b) := tableRow_of 0xB1 (.two .ldaIndY) rfl rfl rfl rfl
theorem TableRow.ldaZpX (b : Byte) : TableRow.Statement (.ldaZpX b) := tableRow_of 0xB5 (.two .ldaZpX) rfl rfl rfl rfl
theorem TableRow.ldaAbsY (w : Addr) : TableRow.Statement (.ldaAbsY w) :=
  tableRow_of 0xB9 (.three .ldaAbsY) rfl rfl rfl (congrArg (fun v => some (Instr.ldaAbsY v)) (hiLo_hi8_lo8 w))
theorem TableRow.ldaAbsX (w : Addr) : TableRow.Statement (.ldaAbsX w) :=
  tableRow_of 0xBD (.three .ldaAbsX) rfl rfl rfl (congrArg (fun v => some (Instr.ldaAbsX v)) (hiLo_hi8_lo8 w))
theorem TableRow.ldxImm (b : Byte) : TableRow.Statement (.ldxImm b) := tableRow_of 0xA2 (.two .ldxImm) rfl rfl rfl rfl
theorem TableRow.ldxZp (b : Byte) : TableRow.Statement (.ldxZp b) := tableRow_of 0xA6 (.two .ldxZp) rfl rfl rfl rfl
theorem TableRow.ldxAbs (w : Addr) : TableRow.Statement (.ldxAbs w) :=
  tableRow_of 0xAE (.three .ldxAbs) rfl rfl rfl (congrArg (fun v => some (Instr.ldxAbs v)) (hiLo_hi8_lo8 w))
theorem TableRow.ldxZpY (b : Byte) : TableRow.Statement (.ldxZpY b) := tableRow_of 0xB6 (.two .ldxZpY) rfl rfl rfl rfl
theorem TableRow.ldxAbsY (w : Addr) : TableRow.Statement (.ldxAbsY w) :=
  tableRow_of 0xBE (.three .ldxAbsY) rfl rfl rfl (congrArg (fun v => some (Instr.ldxAbsY v)) (hiLo_hi8_lo8 w))
theorem TableRow.ldyImm (b : Byte) : TableRow.Statement (.ldyImm b) := tableRow_of 0xA0 (.two .ldyImm) rfl rfl rfl rfl
theorem TableRow.ldyZp (b : Byte) : TableRow.Statement (.ldyZp b) := tableRow_of 0xA4 (.two .ldyZp) rfl rfl rfl rfl
theorem TableRow.ldyAbs (w : Addr) : TableRow.Statement (.ldyAbs w) :=
  tableRow_of 0xAC (.three .ldyAbs) rfl rfl rfl (congrArg (fun v => some (Instr.ldyAbs v)) (hiLo_hi8_lo8 w))
theorem TableRow.ldyZpX (b : Byte) : TableRow.Statement (.ldyZpX b) := tableRow_of 0xB4 (.two .ldyZpX) rfl rfl rfl rfl
theorem TableRow.ldyAbsX (w : Addr) : TableRow.Statement (.ldyAbsX w) :=
  tableRow_of 0xBC (.three .ldyAbsX) rfl rfl rfl (congrArg (fun v => some (Instr.ldyAbsX v)) (hiLo_hi8_lo8 w))
theorem TableRow.staIndX (b : Byte) : TableRow.Statement (.staIndX b) := tableRow_of 0x81 (.two .staIndX) rfl rfl rfl rfl
theorem TableRow.staZp (b : Byte) : TableRow.Statement (.staZp b) := tableRow_of 0x85 (.two .staZp) rfl rfl rfl rfl
theorem TableRow.staAbs (w : Addr) : TableRow.Statement (.staAbs w) :=
  tableRow_of 0x8D (.three .staAbs) rfl rfl rfl (congrArg (fun v => some (Instr.staAbs v)) (hiLo_hi8_lo8 w))
theorem TableRow.staIndY (b : Byte) : TableRow.Statement (.staIndY b) := tableRow_of 0x91 (.two .staIndY) rfl rfl rfl rfl
theorem TableRow.staZpX (b : Byte) : TableRow.Statement (.staZpX b) := tableRow_of 0x95 (.two .staZpX) rfl rfl rfl rfl
theorem TableRow.staAbsY (w : Addr) : TableRow.Statement (.staAbsY w) :=
  tableRow_of 0x99 (.three .staAbsY) rfl rfl rfl (congrArg (fun v => some (Instr.staAbsY v)) (hiLo_hi8_lo8 w))
theorem TableRow.staAbsX (w : Addr) : TableRow.Statement (.staAbsX w) :=
  tableRow_of 0x9D (.three .staAbsX) rfl rfl rfl (congrArg (fun v => some (Instr.staAbsX v)) (hiLo_hi8_lo8 w))
theorem TableRow.stxZp (b : Byte) : TableRow.Statement (.stxZp b) := tableRow_of 0x86 (.two .stxZp) rfl rfl rfl rfl
theorem TableRow.stxAbs (w : Addr) : TableRow.Statement (.stxAbs w) :=
  tableRow_of 0x8E (.three .stxAbs) rfl rfl rfl (congrArg (fun v => some (Instr.stxAbs v)) (hiLo_hi8_lo8 w))
theorem TableRow.stxZpY (b : Byte) : TableRow.Statement (.stxZpY b) := tableRow_of 0x96 (.two .stxZpY) rfl rfl rfl rfl
theorem TableRow.styZp (b : Byte) : TableRow.Statement (.styZp b) := tableRow_of 0x84 (.two .styZp) rfl rfl rfl rfl
theorem TableRow.styAbs (w : Addr) : TableRow.Statement (.styAbs w) :=
  tableRow_of 0x8C (.three .styAbs) rfl rfl rfl (congrArg (fun v => some (Instr.styAbs v)) (hiLo_hi8_lo8 w))
theorem TableRow.styZpX (b : Byte) : TableRow.Statement (.styZpX b) := tableRow_of 0x94 (.two .styZpX) rfl rfl rfl rfl
theorem TableRow.incZp (b : Byte) : TableRow.Statement (.incZp b) := tableRow_of 0xE6 (.two .incZp) rfl rfl rfl rfl
theorem TableRow.incAbs (w : Addr) : TableRow.Statement (.incAbs w) :=
  tableRow_of 0xEE (.three .incAbs) rfl rfl rfl (congrArg (fun v => some (Instr.incAbs v)) (hiLo_hi8_lo8 w))
theorem TableRow.incZpX (b : Byte) : TableRow.Statement (.incZpX b) := tableRow_of 0xF6 (.two .incZpX) rfl rfl rfl rfl
theorem TableRow.incAbsX (w : Addr) : TableRow.Statement (.incAbsX w) :=
  tableRow_of 0xFE (.three .incAbsX) rfl rfl rfl (congrArg (fun v => some (Instr.incAbsX v)) (hiLo_hi8_lo8 w))
theorem TableRow.decZp (b : Byte) : TableRow.Statement (.decZp b) := tableRow_of 0xC6 (.two .decZp) rfl rfl rfl rfl
theorem TableRow.decAbs (w : Addr) : TableRow.Statement (.decAbs w) :=
  tableRow_of 0xCE (.three .decAbs) rfl rfl rfl (congrArg (fun v => some (Instr.decAbs v)) (hiLo_hi8_lo8 w))
theorem TableRow.decZpX (b : Byte) : TableRow.Statement (.decZpX b) := tableRow_of 0xD6 (.two .decZpX) rfl rfl rfl rfl
theorem TableRow.decAbsX (w : Addr) : TableRow.Statement (.decAbsX w) :=
  tableRow_of 0xDE (.three .decAbsX) rfl rfl rfl (congrArg (fun v => some (Instr.decAbsX v)) (hiLo_hi8_lo8 w))
theorem TableRow.inx : TableRow.Statement .inx := tableRow_of 0xE8 (.one .inx) rfl rfl rfl rfl
theorem TableRow.iny : TableRow.Statement .iny := tableRow_of 0xC8 (.one .iny) rfl rfl rfl rfl
theorem TableRow.dex : TableRow.Statement .dex := tableRow_of 0xCA (.one .dex) rfl rfl rfl rfl
theorem TableRow.dey : TableRow.Statement .dey := tableRow_of 0x88 (.one .dey) rfl rfl rfl rfl
theorem TableRow.cmpIndX (b : Byte) : TableRow.Statement (.cmpIndX b) := tableRow_of 0xC1 (.two .cmpIndX) rfl rfl rfl rfl
theorem TableRow.cmpZp (b : Byte) : TableRow.Statement (.cmpZp b) := tableRow_of 0xC5 (.two .cmpZp) rfl rfl rfl rfl
theorem TableRow.cmpImm (b : Byte) : TableRow.Statement (.cmpImm b) := tableRow_of 0xC9 (.two .cmpImm) rfl rfl rfl rfl
theorem TableRow.cmpAbs (w : Addr) : TableRow.Statement (.cmpAbs w) :=
  tableRow_of 0xCD (.three .cmpAbs) rfl rfl rfl (congrArg (fun v => some (Instr.cmpAbs v)) (hiLo_hi8_lo8 w))
theorem TableRow.cmpIndY (b : Byte) : TableRow.Statement (.cmpIndY b) := tableRow_of 0xD1 (.two .cmpIndY) rfl rfl rfl rfl
theorem TableRow.cmpZpX (b : Byte) : TableRow.Statement (.cmpZpX b) := tableRow_of 0xD5 (.two .cmpZpX) rfl rfl rfl rfl
theorem TableRow.cmpAbsY (w : Addr) : TableRow.Statement (.cmpAbsY w) :=
  tableRow_of 0xD9 (.three .cmpAbsY) rfl rfl rfl (congrArg (fun v => some (Instr.cmpAbsY v)) (hiLo_hi8_lo8 w))
theorem TableRow.cmpAbsX (w : Addr) : TableRow.Statement (.cmpAbsX w) :=
  tableRow_of 0xDD (.three .cmpAbsX) rfl rfl rfl (congrArg (fun v => some (Instr.cmpAbsX v)) (hiLo_hi8_lo8 w))
theorem TableRow.cpxImm (b : Byte) : TableRow.Statement (.cpxImm b) := tableRow_of 0xE0 (.two .cpxImm) rfl rfl rfl rfl
theorem TableRow.cpxZp (b : Byte) : TableRow.Statement (.cpxZp b) := tableRow_of 0xE4 (.two .cpxZp) rfl rfl rfl rfl
theorem TableRow.cpxAbs (w : Addr) : TableRow.Statement (.cpxAbs w) :=
  tableRow_of 0xEC (.three .cpxAbs) rfl rfl rfl (congrArg (fun v => some (Instr.cpxAbs v)) (hiLo_hi8_lo8 w))
theorem TableRow.cpyImm (b : Byte) : TableRow.Statement (.cpyImm b) := tableRow_of 0xC0 (.two .cpyImm) rfl rfl rfl rfl
theorem TableRow.cpyZp (b : Byte) : TableRow.Statement (.cpyZp b) := tableRow_of 0xC4 (.two .cpyZp) rfl rfl rfl rfl
theorem TableRow.cpyAbs (w : Addr) : TableRow.Statement (.cpyAbs w) :=
  tableRow_of 0xCC (.three .cpyAbs) rfl rfl rfl (congrArg (fun v => some (Instr.cpyAbs v)) (hiLo_hi8_lo8 w))
theorem TableRow.bitZp (b : Byte) : TableRow.Statement (.bitZp b) := tableRow_of 0x24 (.two .bitZp) rfl rfl rfl rfl
theorem TableRow.bitAbs (w : Addr) : TableRow.Statement (.bitAbs w) :=
  tableRow_of 0x2C (.three .bitAbs) rfl rfl rfl (congrArg (fun v => some (Instr.bitAbs v)) (hiLo_hi8_lo8 w))
theorem TableRow.andIndX (b : Byte) : TableRow.Statement (.andIndX b) := tableRow_of 0x21 (.two .andIndX) rfl rfl rfl rfl
theorem TableRow.andZp (b : Byte) : TableRow.Statement (.andZp b) := tableRow_of 0x25 (.two .andZp) rfl rfl rfl rfl
theorem TableRow.andImm (b : Byte) : TableRow.Statement (.andImm b) := tableRow_of 0x29 (.two .andImm) rfl rfl rfl rfl
theorem TableRow.andAbs (w : Addr) : TableRow.Statement (.andAbs w) :=
  tableRow_of 0x2D (.three .andAbs) rfl rfl rfl (congrArg (fun v => some (Instr.andAbs v)) (hiLo_hi8_lo8 w))
theorem TableRow.andIndY (b : Byte) : TableRow.Statement (.andIndY b) := tableRow_of 0x31 (.two .andIndY) rfl rfl rfl rfl
theorem TableRow.andZpX (b : Byte) : TableRow.Statement (.andZpX b) := tableRow_of 0x35 (.two .andZpX) rfl rfl rfl rfl
theorem TableRow.andAbsY (w : Addr) : TableRow.Statement (.andAbsY w) :=
  tableRow_of 0x39 (.three .andAbsY) rfl rfl rfl (congrArg (fun v => some (Instr.andAbsY v)) (hiLo_hi8_lo8 w))
theorem TableRow.andAbsX (w : Addr) : TableRow.Statement (.andAbsX w) :=
  tableRow_of 0x3D (.three .andAbsX) rfl rfl rfl (congrArg (fun v => some (Instr.andAbsX v)) (hiLo_hi8_lo8 w))
theorem TableRow.oraIndX (b : Byte) : TableRow.Statement (.oraIndX b) := tableRow_of 0x01 (.two .oraIndX) rfl rfl rfl rfl
theorem TableRow.oraZp (b : Byte) : TableRow.Statement (.oraZp b) := tableRow_of 0x05 (.two .oraZp) rfl rfl rfl rfl
theorem TableRow.oraImm (b : Byte) : TableRow.Statement (.oraImm b) := tableRow_of 0x09 (.two .oraImm) rfl rfl rfl rfl
theorem TableRow.oraAbs (w : Addr) : TableRow.Statement (.oraAbs w) :=
  tableRow_of 0x0D (.three .oraAbs) rfl rfl rfl (congrArg (fun v => some (Instr.oraAbs v)) (hiLo_hi8_lo8 w))
theorem TableRow.oraIndY (b : Byte) : TableRow.Statement (.oraIndY b) := tableRow_of 0x11 (.two .oraIndY) rfl rfl rfl rfl
theorem TableRow.oraZpX (b : Byte) : TableRow.Statement (.oraZpX b) := tableRow_of 0x15 (.two .oraZpX) rfl rfl rfl rfl
theorem TableRow.oraAbsY (w : Addr) : TableRow.Statement (.oraAbsY w) :=
  tableRow_of 0x19 (.three .oraAbsY) rfl rfl rfl (congrArg (fun v => some (Instr.oraAbsY v)) (hiLo_hi8_lo8 w))
theorem TableRow.oraAbsX (w : Addr) : TableRow.Statement (.oraAbsX w) :=
  tableRow_of 0x1D (.three .oraAbsX) rfl rfl rfl (congrArg (fun v => some (Instr.oraAbsX v)) (hiLo_hi8_lo8 w))
theorem TableRow.eorIndX (b : Byte) : TableRow.Statement (.eorIndX b) := tableRow_of 0x41 (.two .eorIndX) rfl rfl rfl rfl
theorem TableRow.eorZp (b : Byte) : TableRow.Statement (.eorZp b) := tableRow_of 0x45 (.two .eorZp) rfl rfl rfl rfl
theorem TableRow.eorImm (b : Byte) : TableRow.Statement (.eorImm b) := tableRow_of 0x49 (.two .eorImm) rfl rfl rfl rfl
theorem TableRow.eorAbs (w : Addr) : TableRow.Statement (.eorAbs w) :=
  tableRow_of 0x4D (.three .eorAbs) rfl rfl rfl (congrArg (fun v => some (Instr.eorAbs v)) (hiLo_hi8_lo8 w))
theorem TableRow.eorIndY (b : Byte) : TableRow.Statement (.eorIndY b) := tableRow_of 0x51 (.two .eorIndY) rfl rfl rfl rfl
theorem TableRow.eorZpX (b : Byte) : TableRow.Statement (.eorZpX b) := tableRow_of 0x55 (.two .eorZpX) rfl rfl rfl rfl
theorem TableRow.eorAbsY (w : Addr) : TableRow.Statement (.eorAbsY w) :=
  tableRow_of 0x59 (.three .eorAbsY) rfl rfl rfl (congrArg (fun v => some (Instr.eorAbsY v)) (hiLo_hi8_lo8 w))
theorem TableRow.eorAbsX (w : Addr) : TableRow.Statement (.eorAbsX w) :=
  tableRow_of 0x5D (.three .eorAbsX) rfl rfl rfl (congrArg (fun v => some (Instr.eorAbsX v)) (hiLo_hi8_lo8 w))
theorem TableRow.adcIndX (b : Byte) : TableRow.Statement (.adcIndX b) := tableRow_of 0x61 (.two .adcIndX) rfl rfl rfl rfl
theorem TableRow.adcZp (b : Byte) : TableRow.Statement (.adcZp b) := tableRow_of 0x65 (.two .adcZp) rfl rfl rfl rfl
theorem TableRow.adcImm (b : Byte) : TableRow.Statement (.adcImm b) := tableRow_of 0x69 (.two .adcImm) rfl rfl rfl rfl
theorem TableRow.adcAbs (w : Addr) : TableRow.Statement (.adcAbs w) :=
  tableRow_of 0x6D (.three .adcAbs) rfl rfl rfl (congrArg (fun v => some (Instr.adcAbs v)) (hiLo_hi8_lo8 w))
theorem TableRow.adcIndY (b : Byte) : TableRow.Statement (.adcIndY b) := tableRow_of 0x71 (.two .adcIndY) rfl rfl rfl rfl
theorem TableRow.adcZpX (b : Byte) : TableRow.Statement (.adcZpX b) := tableRow_of 0x75 (.two .adcZpX) rfl rfl rfl rfl
theorem TableRow.adcAbsY (w : Addr) : TableRow.Statement (.adcAbsY w) :=
  tableRow_of 0x79 (.three .adcAbsY) rfl rfl rfl (congrArg (fun v => some (Instr.adcAbsY v)) (hiLo_hi8_lo8 w))
theorem TableRow.adcAbsX (w : Addr) : TableRow.Statement (.adcAbsX w) :=
  tableRow_of 0x7D (.three .adcAbsX) rfl rfl rfl (congrArg (fun v => some (Instr.adcAbsX v)) (hiLo_hi8_lo8 w))
theorem TableRow.sbcIndX (b : Byte) : TableRow.Statement (.sbcIndX b) := tableRow_of 0xE1 (.two .sbcIndX) rfl rfl rfl rfl
theorem TableRow.sbcZp (b : Byte) : TableRow.Statement (.sbcZp b) := tableRow_of 0xE5 (.two .sbcZp) rfl rfl rfl rfl
theorem TableRow.sbcImm (b : Byte) : TableRow.Statement (.sbcImm b) := tableRow_of 0xE9 (.two .sbcImm) rfl rfl rfl rfl
theorem TableRow.sbcAbs (w : Addr) : TableRow.Statement (.sbcAbs w) :=
  tableRow_of 0xED (.three .sbcAbs) rfl rfl rfl (congrArg (fun v => some (Instr.sbcAbs v)) (hiLo_hi8_lo8 w))
theorem TableRow.sbcIndY (b : Byte) : TableRow.Statement (.sbcIndY b) := tableRow_of 0xF1 (.two .sbcIndY) rfl rfl rfl rfl
theorem TableRow.sbcZpX (b : Byte) : TableRow.Statement (.sbcZpX b) := tableRow_of 0xF5 (.two .sbcZpX) rfl rfl rfl rfl
theorem TableRow.sbcAbsY (w : Addr) : TableRow.Statement (.sbcAbsY w) :=
  tableRow_of 0xF9 (.three .sbcAbsY) rfl rfl rfl (congrArg (fun v => some (Instr.sbcAbsY v)) (hiLo_hi8_lo8 w))
theorem TableRow.sbcAbsX (w : Addr) : TableRow.Statement (.sbcAbsX w) :=
  tableRow_of 0xFD (.three .sbcAbsX) rfl rfl rfl (congrArg (fun v => some (Instr.sbcAbsX v)) (hiLo_hi8_lo8 w))
theorem TableRow.aslZp (b : Byte) : TableRow.Statement (.aslZp b) := tableRow_of 0x06 (.two .aslZp) rfl rfl rfl rfl
theorem TableRow.aslAcc : TableRow.Statement .aslAcc := tableRow_of 0x0A (.one .aslAcc) rfl rfl rfl rfl
theorem TableRow.aslAbs (w : Addr) : TableRow.Statement (.aslAbs w) :=
  tableRow_of 0x0E (.three .aslAbs) rfl rfl rfl (congrArg (fun v => some (Instr.aslAbs v)) (hiLo_hi8_lo8 w))
theorem TableRow.aslZpX (b : Byte) : TableRow.Statement (.aslZpX b) := tableRow_of 0x16 (.two .aslZpX) rfl rfl rfl rfl
theorem TableRow.aslAbsX (w : Addr) : TableRow.Statement (.aslAbsX w) :=
  tableRow_of 0x1E (.three .aslAbsX) rfl rfl rfl (congrArg (fun v => some (Instr.aslAbsX v)) (hiLo_hi8_lo8 w))
theorem TableRow.lsrZp (b : Byte) : TableRow.Statement (.lsrZp b) := tableRow_of 0x46 (.two .lsrZp) rfl rfl rfl rfl
theorem TableRow.lsrAcc : TableRow.Statement .lsrAcc := tableRow_of 0x4A (.one .lsrAcc) rfl rfl rfl rfl
theorem TableRow.lsrAbs (w : Addr) : TableRow.Statement (.lsrAbs w) :=
  tableRow_of 0x4E (.three .lsrAbs) rfl rfl rfl (congrArg (fun v => some (Instr.lsrAbs v)) (hiLo_hi8_lo8 w))
theorem TableRow.lsrZpX (b : Byte) : TableRow.Statement (.lsrZpX b) := tableRow_of 0x56 (.two .lsrZpX) rfl rfl rfl rfl
theorem TableRow.lsrAbsX (w : Addr) : TableRow.Statement (.lsrAbsX w) :=
  tableRow_of 0x5E (.three .lsrAbsX) rfl rfl rfl (congrArg (fun v => some (Instr.lsrAbsX v)) (hiLo_hi8_lo8 w))
theorem TableRow.rolZp (b : Byte) : TableRow.Statement (.rolZp b) := tableRow_of 0x26 (.two .rolZp) rfl rfl rfl rfl
theorem TableRow.rolAcc : TableRow.Statement .rolAcc := tableRow_of 0x2A (.one .rolAcc) rfl rfl rfl rfl
theorem TableRow.rolAbs (w : Addr) : TableRow.Statement (.rolAbs w) :=
  tableRow_of 0x2E (.three .rolAbs) rfl rfl rfl (congrArg (fun v => some (Instr.rolAbs v)) (hiLo_hi8_lo8 w))
theorem TableRow.rolZpX (b : Byte) : TableRow.Statement (.rolZpX b) := tableRow_of 0x36 (.two .rolZpX) rfl rfl rfl rfl
theorem TableRow.rolAbsX (w : Addr) : TableRow.Statement (.rolAbsX w) :=
  tableRow_of 0x3E (.three .rolAbsX) rfl rfl rfl (congrArg (fun v => some (Instr.rolAbsX v)) (hiLo_hi8_lo8 w))
theorem TableRow.rorZp (b : Byte) : TableRow.Statement (.rorZp b) := tableRow_of 0x66 (.two .rorZp) rfl rfl rfl rfl
theorem TableRow.rorAcc : TableRow.Statement .rorAcc := tableRow_of 0x6A (.one .rorAcc) rfl rfl rfl rfl
theorem TableRow.rorAbs (w : Addr) : TableRow.Statement (.rorAbs w) :=
  tableRow_of 0x6E (.three .rorAbs) rfl rfl rfl (congrArg (fun v => some (Instr.rorAbs v)) (hiLo_hi8_lo8 w))
theorem TableRow.rorZpX (b : Byte) : TableRow.Statement (.rorZpX b) := tableRow_of 0x76 (.two .rorZpX) rfl rfl rfl rfl
theorem TableRow.rorAbsX (w : Addr) : TableRow.Statement (.rorAbsX w) :=
  tableRow_of 0x7E (.three .rorAbsX) rfl rfl rfl (congrArg (fun v => some (Instr.rorAbsX v)) (hiLo_hi8_lo8 w))
theorem TableRow.bpl (b : Byte) : TableRow.Statement (.bpl b) := tableRow_of 0x10 (.two .bpl) rfl rfl rfl rfl
theorem TableRow.bmi (b : Byte) : TableRow.Statement (.bmi b) := tableRow_of 0x30 (.two .bmi) rfl rfl rfl rfl
theorem TableRow.bvc (b : Byte) : TableRow.Statement (.bvc b) := tableRow_of 0x50 (.two .bvc) rfl rfl rfl rfl
theorem TableRow.bvs (b : Byte) : TableRow.Statement (.bvs b) := tableRow_of 0x70 (.two .bvs) rfl rfl rfl rfl
theorem TableRow.bcc (b : Byte) : TableRow.Statement (.bcc b) := tableRow_of 0x90 (.two .bcc) rfl rfl rfl rfl
theorem TableRow.bcs (b : Byte) : TableRow.Statement (.bcs b) := tableRow_of 0xB0 (.two .bcs) rfl rfl rfl rfl
theorem TableRow.bne (b : Byte) : TableRow.Statement (.bne b) := tableRow_of 0xD0 (.two .bne) rfl rfl rfl rfl
theorem TableRow.beq (b : Byte) : TableRow.Statement (.beq b) := tableRow_of 0xF0 (.two .beq) rfl rfl rfl rfl
theorem TableRow.jmpAbs (w : Addr) : TableRow.Statement (.jmpAbs w) :=
  tableRow_of 0x4C (.three .jmpAbs) rfl rfl rfl (congrArg (fun v => some (Instr.jmpAbs v)) (hiLo_hi8_lo8 w))
theorem TableRow.jmpInd (w : Addr) : TableRow.Statement (.jmpInd w) :=
  tableRow_of 0x6C (.three .jmpInd) rfl rfl rfl (congrArg (fun v => some (Instr.jmpInd v)) (hiLo_hi8_lo8 w))
theorem TableRow.jsrAbs (w : Addr) : TableRow.Statement (.jsrAbs w) :=
  tableRow_of 0x20 (.three .jsrAbs) rfl rfl rfl (congrArg (fun v => some (Instr.jsrAbs v)) (hiLo_hi8_lo8 w))
theorem TableRow.rts : TableRow.Statement .rts := tableRow_of 0x60 (.one .rts) rfl rfl rfl rfl
theorem TableRow.brk : TableRow.Statement .brk := tableRow_of 0x00 (.one .brk) rfl rfl rfl rfl
theorem TableRow.rti : TableRow.Statement .rti := tableRow_of 0x40 (.one .rti) rfl rfl rfl rfl
theorem TableRow.pha : TableRow.Statement .pha := tableRow_of 0x48 (.one .pha) rfl rfl rfl rfl
theorem TableRow.php : TableRow.Statement .php := tableRow_of 0x08 (.one .php) rfl rfl rfl rfl
theorem TableRow.pla : TableRow.Statement .pla := tableRow_of 0x68 (.one .pla) rfl rfl rfl rfl
theorem TableRow.plp : TableRow.Statement .plp := tableRow_of 0x28 (.one .plp) rfl rfl rfl rfl
theorem TableRow.tax : TableRow.Statement .tax := tableRow_of 0xAA (.one .tax) rfl rfl rfl rfl
theorem TableRow.tay : TableRow.Statement .tay := tableRow_of 0xA8 (.one .tay) rfl rfl rfl rfl
theorem TableRow.txa : TableRow.Statement .txa := tableRow_of 0x8A (.one .txa) rfl rfl rfl rfl
theorem TableRow.tya : TableRow.Statement .tya := tableRow_of 0x98 (.one .tya) rfl rfl rfl rfl
theorem TableRow.tsx : TableRow.Statement .tsx := tableRow_of 0xBA (.one .tsx) rfl rfl rfl rfl
theorem TableRow.txs : TableRow.Statement .txs := tableRow_of 0x9A (.one .txs) rfl rfl rfl rfl
theorem TableRow.clc : TableRow.Statement .clc := tableRow_of 0x18 (.one .clc) rfl rfl rfl rfl
theorem TableRow.sec : TableRow.Statement .sec := tableRow_of 0x38 (.one .sec) rfl rfl rfl rfl
theorem TableRow.cli : TableRow.Statement .cli := tableRow_of 0x58 (.one .cli) rfl rfl rfl rfl
theorem TableRow.sei : TableRow.Statement .sei := tableRow_of 0x78 (.one .sei) rfl rfl rfl rfl
theorem TableRow.cld : TableRow.Statement .cld := tableRow_of 0xD8 (.one .cld) rfl rfl rfl rfl
theorem TableRow.sed : TableRow.Statement .sed := tableRow_of 0xF8 (.one .sed) rfl rfl rfl rfl
theorem TableRow.clv : TableRow.Statement .clv := tableRow_of 0xB8 (.one .clv) rfl rfl rfl rfl
theorem TableRow.nop : TableRow.Statement .nop := tableRow_of 0xEA (.one .nop) rfl rfl rfl rfl
theorem TableRow.sloIndX (b : Byte) : TableRow.Statement (.sloIndX b) := tableRow_of 0x03 (.two .sloIndX) rfl rfl rfl rfl
theorem TableRow.sloZp (b : Byte) : TableRow.Statement (.sloZp b) := tableRow_of 0x07 (.two .sloZp) rfl rfl rfl rfl
theorem TableRow.sloAbs (w : Addr) : TableRow.Statement (.sloAbs w) :=
  tableRow_of 0x0F (.three .sloAbs) rfl rfl rfl (congrArg (fun v => some (Instr.sloAbs v)) (hiLo_hi8_lo8 w))
theorem TableRow.sloIndY (b : Byte) : TableRow.Statement (.sloIndY b) := tableRow_of 0x13 (.two .sloIndY) rfl rfl rfl rfl
theorem TableRow.sloZpX (b : Byte) : TableRow.Statement (.sloZpX b) := tableRow_of 0x17 (.two .sloZpX) rfl rfl rfl rfl
theorem TableRow.sloAbsY (w : Addr) : TableRow.Statement (.sloAbsY w) :=
  tableRow_of 0x1B (.three .sloAbsY) rfl rfl rfl (congrArg (fun v => some (Instr.sloAbsY v)) (hiLo_hi8_lo8 w))
theorem TableRow.sloAbsX (w : Addr) : TableRow.Statement (.sloAbsX w) :=
  tableRow_of 0x1F (.three .sloAbsX) rfl rfl rfl (congrArg (fun v => some (Instr.sloAbsX v)) (hiLo_hi8_lo8 w))
theorem TableRow.rlaIndX (b : Byte) : TableRow.Statement (.rlaIndX b) := tableRow_of 0x23 (.two .rlaIndX) rfl rfl rfl rfl
theorem TableRow.rlaZp (b : Byte) : TableRow.Statement (.rlaZp b) := tableRow_of 0x27 (.two .rlaZp) rfl rfl rfl rfl
theorem TableRow.rlaAbs (w : Addr) : TableRow.Statement (.rlaAbs w) :=
  tableRow_of 0x2F (.three .rlaAbs) rfl rfl rfl (congrArg (fun v => some (Instr.rlaAbs v)) (hiLo_hi8_lo8 w))
theorem TableRow.rlaIndY (b : Byte) : TableRow.Statement (.rlaIndY b) := tableRow_of 0x33 (.two .rlaIndY) rfl rfl rfl rfl
theorem TableRow.rlaZpX (b : Byte) : TableRow.Statement (.rlaZpX b) := tableRow_of 0x37 (.two .rlaZpX) rfl rfl rfl rfl
theorem TableRow.rlaAbsY (w : Addr) : TableRow.Statement (.rlaAbsY w) :=
  tableRow_of 0x3B (.three .rlaAbsY) rfl rfl rfl (congrArg (fun v => some (Instr.rlaAbsY v)) (hiLo_hi8_lo8 w))
theorem TableRow.rlaAbsX (w : Addr) : TableRow.Statement (.rlaAbsX w) :=
  tableRow_of 0x3F (.three .rlaAbsX) rfl rfl rfl (congrArg (fun v => some (Instr.rlaAbsX v)) (hiLo_hi8_lo8 w))
theorem TableRow.sreIndX (b : Byte) : TableRow.Statement (.sreIndX b) := tableRow_of 0x43 (.two .sreIndX) rfl rfl rfl rfl
theorem TableRow.sreZp (b : Byte) : TableRow.Statement (.sreZp b) := tableRow_of 0x47 (.two .sreZp) rfl rfl rfl rfl
theorem TableRow.sreAbs (w : Addr) : TableRow.Statement (.sreAbs w) :=
  tableRow_of 0x4F (.three .sreAbs) rfl rfl rfl (congrArg (fun v => some (Instr.sreAbs v)) (hiLo_hi8_lo8 w))
theorem TableRow.sreIndY (b : Byte) : TableRow.Statement (.sreIndY b) := tableRow_of 0x53 (.two .sreIndY) rfl rfl rfl rfl
theorem TableRow.sreZpX (b : Byte) : TableRow.Statement (.sreZpX b) := tableRow_of 0x57 (.two .sreZpX) rfl rfl rfl rfl
theorem TableRow.sreAbsY (w : Addr) : TableRow.Statement (.sreAbsY w) :=
  tableRow_of 0x5B (.three .sreAbsY) rfl rfl rfl (congrArg (fun v => some (Instr.sreAbsY v)) (hiLo_hi8_lo8 w))
theorem TableRow.sreAbsX (w : Addr) : TableRow.Statement (.sreAbsX w) :=
  tableRow_of 0x5F (.three .sreAbsX) rfl rfl rfl (congrArg (fun v => some (Instr.sreAbsX v)) (hiLo_hi8_lo8 w))
theorem TableRow.rraIndX (b : Byte) : TableRow.Statement (.rraIndX b) := tableRow_of 0x63 (.two .rraIndX) rfl rfl rfl rfl
theorem TableRow.rraZp (b : Byte) : TableRow.Statement (.rraZp b) := tableRow_of 0x67 (.two .rraZp) rfl rfl rfl rfl
theorem TableRow.rraAbs (w : Addr) : TableRow.Statement (.rraAbs w) :=
  tableRow_of 0x6F (.three .rraAbs) rfl rfl rfl (congrArg (fun v => some (Instr.rraAbs v)) (hiLo_hi8_lo8 w))
theorem TableRow.rraIndY (b : Byte) : TableRow.Statement (.rraIndY b) := tableRow_of 0x73 (.two .rraIndY) rfl rfl rfl rfl
theorem TableRow.rraZpX (b : Byte) : TableRow.Statement (.rraZpX b) := tableRow_of 0x77 (.two .rraZpX) rfl rfl rfl rfl
theorem TableRow.rraAbsY (w : Addr) : TableRow.Statement (.rraAbsY w) :=
  tableRow_of 0x7B (.three .rraAbsY) rfl rfl rfl (congrArg (fun v => some (Instr.rraAbsY v)) (hiLo_hi8_lo8 w))
theorem TableRow.rraAbsX (w : Addr) : TableRow.Statement (.rraAbsX w) :=
  tableRow_of 0x7F (.three .rraAbsX) rfl rfl rfl (congrArg (fun v => some (Instr.rraAbsX v)) (hiLo_hi8_lo8 w))
theorem TableRow.dcpIndX (b : Byte) : TableRow.Statement (.dcpIndX b) := tableRow_of 0xC3 (.two .dcpIndX) rfl rfl rfl rfl
theorem TableRow.dcpZp (b : Byte) : TableRow.Statement (.dcpZp b) := tableRow_of 0xC7 (.two .dcpZp) rfl rfl rfl rfl
theorem TableRow.dcpAbs (w : Addr) : TableRow.Statement (.dcpAbs w) :=
  tableRow_of 0xCF (.three .dcpAbs) rfl rfl rfl (congrArg (fun v => some (Instr.dcpAbs v)) (hiLo_hi8_lo8 w))
theorem TableRow.dcpIndY (b : Byte) : TableRow.Statement (.dcpIndY b) := tableRow_of 0xD3 (.two .dcpIndY) rfl rfl rfl rfl
theorem TableRow.dcpZpX (b : Byte) : TableRow.Statement (.dcpZpX b) := tableRow_of 0xD7 (.two .dcpZpX) rfl rfl rfl rfl
theorem TableRow.dcpAbsY (w : Addr) : TableRow.Statement (.dcpAbsY w) :=
  tableRow_of 0xDB (.three .dcpAbsY) rfl rfl rfl (congrArg (fun v => some (Instr.dcpAbsY v)) (hiLo_hi8_lo8 w))
theorem TableRow.dcpAbsX (w : Addr) : TableRow.Statement (.dcpAbsX w) :=
  tableRow_of 0xDF (.three .dcpAbsX) rfl rfl rfl (congrArg (fun v => some (Instr.dcpAbsX v)) (hiLo_hi8_lo8 w))
theorem TableRow.isbIndX (b : Byte) : TableRow.Statement (.isbIndX b) := tableRow_of 0xE3 (.two .isbIndX) rfl rfl rfl rfl
theorem TableRow.isbZp (b : Byte) : TableRow.Statement (.isbZp b) := tableRow_of 0xE7 (.two .isbZp) rfl rfl rfl rfl
theorem TableRow.isbAbs (w : Addr) : TableRow.Statement (.isbAbs w) :=
  tableRow_of 0xEF (.three .isbAbs) rfl rfl rfl (congrArg (fun v => some (Instr.isbAbs v)) (hiLo_hi8_lo8 w))
theorem TableRow.isbIndY (b : Byte) : TableRow.Statement (.isbIndY b) := tableRow_of 0xF3 (.two .isbIndY) rfl rfl rfl rfl
theorem TableRow.isbZpX (b : Byte) : TableRow.Statement (.isbZpX b) := tableRow_of 0xF7 (.two .isbZpX) rfl rfl rfl rfl
theorem TableRow.isbAbsY (w : Addr) : TableRow.Statement (.isbAbsY w) :=
  tableRow_of 0xFB (.three .isbAbsY) rfl rfl rfl (congrArg (fun v => some (Instr.isbAbsY v)) (hiLo_hi8_lo8 w))
theorem TableRow.isbAbsX (w : Addr) : TableRow.Statement (.isbAbsX w) :=
  tableRow_of 0xFF (.three .isbAbsX) rfl rfl rfl (congrArg (fun v => some (Instr.isbAbsX v)) (hiLo_hi8_lo8 w))
theorem TableRow.laxIndX (b : Byte) : TableRow.Statement (.laxIndX b) := tableRow_of 0xA3 (.two .laxIndX) rfl rfl rfl rfl
theorem TableRow.laxZp (b : Byte) : TableRow.Statement (.laxZp b) := tableRow_of 0xA7 (.two .laxZp) rfl rfl rfl rfl
theorem TableRow.laxAbs (w : Addr) : TableRow.Statement (.laxAbs w) :=
  tableRow_of 0xAF (.three .laxAbs) rfl rfl rfl (congrArg (fun v => some (Instr.laxAbs v)) (hiLo_hi8_lo8 w))
theorem TableRow.laxIndY (b : Byte) : TableRow.Statement (.laxIndY b) := tableRow_of 0xB3 (.two .laxIndY) rfl rfl rfl rfl
theorem TableRow.laxZpY (b : Byte) : TableRow.Statement (.laxZpY b) := tableRow_of 0xB7 (.two .laxZpY) rfl rfl rfl rfl
theorem TableRow.laxAbsY (w : Addr) : TableRow.Statement (.laxAbsY w) :=
  tableRow_of 0xBF (.three .laxAbsY) rfl rfl rfl (congrArg (fun v => some (Instr.laxAbsY v)) (hiLo_hi8_lo8 w))
theorem TableRow.saxIndX (b : Byte) : TableRow.Statement (.saxIndX b) := tableRow_of 0x83 (.two .saxIndX) rfl rfl rfl rfl
theorem TableRow.saxZp (b : Byte) : TableRow.Statement (.saxZp b) := tableRow_of 0x87 (.two .saxZp) rfl rfl rfl rfl
theorem TableRow.saxAbs (w : Addr) : TableRow.Statement (.saxAbs w) :=
  tableRow_of 0x8F (.three .saxAbs) rfl rfl rfl (congrArg (fun v => some (Instr.saxAbs v)) (hiLo_hi8_lo8 w))
theorem TableRow.saxZpY (b : Byte) : TableRow.Statement (.saxZpY b) := tableRow_of 0x97 (.two .saxZpY) rfl rfl rfl rfl
theorem TableRow.sbcImmEB (b : Byte) : TableRow.Statement (.sbcImmEB b) := tableRow_of 0xEB (.two .sbcImmEB) rfl rfl rfl rfl
theorem TableRow.nopZp04 (b : Byte) : TableRow.Statement (.nopZp04 b) := tableRow_of 0x04 (.two .nopZp04) rfl rfl rfl rfl
theorem TableRow.nopAbs0C (w : Addr) : TableRow.Statement (.nopAbs0C w) :=
  tableRow_of 0x0C (.three .nopAbs0C) rfl rfl rfl (congrArg (fun v => some (Instr.nopAbs0C v)) (hiLo_hi8_lo8 w))
theorem TableRow.nopZpX14 (b : Byte) : TableRow.Statement (.nopZpX14 b) := tableRow_of 0x14 (.two .nopZpX14) rfl rfl rfl rfl
theorem TableRow.nopImp1A : TableRow.Statement .nopImp1A := tableRow_of 0x1A (.one .nopImp1A) rfl rfl rfl rfl
theorem TableRow.nopAbsX1C (w : Addr) : TableRow.Statement (.nopAbsX1C w) :=
  tableRow_of 0x1C (.three .nopAbsX1C) rfl rfl rfl (congrArg (fun v => some (Instr.nopAbsX1C v)) (hiLo_hi8_lo8 w))
theorem TableRow.nopZpX34 (b : Byte) : TableRow.Statement (.nopZpX34 b) := tableRow_of 0x34 (.two .nopZpX34) rfl rfl rfl rfl
theorem TableRow.nopImp3A : TableRow.Statement .nopImp3A := tableRow_of 0x3A (.one .nopImp3A) rfl rfl rfl rfl
theorem TableRow.nopAbsX3C (w : Addr) : TableRow.Statement (.nopAbsX3C w) :=
  tableRow_of 0x3C (.three .nopAbsX3C) rfl rfl rfl (congrArg (fun v => some (Instr.nopAbsX3C v)) (hiLo_hi8_lo8 w))
theorem TableRow.nopZp44 (b : Byte) : TableRow.Statement (.nopZp44 b) := tableRow_of 0x44 (.two .nopZp44) rfl rfl rfl rfl
theorem TableRow.nopZpX54 (b : Byte) : TableRow.Statement (.nopZpX54 b) := tableRow_of 0x54 (.two .nopZpX54) rfl rfl rfl rfl
theorem TableRow.nopImp5A : TableRow.Statement .nopImp5A := tableRow_of 0x5A (.one .nopImp5A) rfl rfl rfl rfl
theorem TableRow.nopAbsX5C (w : Addr) : TableRow.Statement (.nopAbsX5C w) :=
  tableRow_of 0x5C (.three .nopAbsX5C) rfl rfl rfl (congrArg (fun v => some (Instr.nopAbsX5C v)) (hiLo_hi8_lo8 w))
theorem TableRow.nopZp64 (b : Byte) : TableRow.Statement (.nopZp64 b) := tableRow_of 0x64 (.two .nopZp64) rfl rfl rfl rfl
theorem TableRow.nopZpX74 (b : Byte) : TableRow.Statement (.nopZpX74 b) := tableRow_of 0x74 (.two .nopZpX74) rfl rfl rfl rfl
theorem TableRow.nopImp7A : TableRow.Statement .nopImp7A := tableRow_of 0x7A (.one .nopImp7A) rfl rfl rfl rfl
theorem TableRow.nopAbsX7C (w : Addr) : TableRow.Statement (.nopAbsX7C w) :=
  tableRow_of 0x7C (.three .nopAbsX7C) rfl rfl rfl (congrArg (fun v => some (Instr.nopAbsX7C v)) (hiLo_hi8_lo8 w))
theorem TableRow.nopImm80 (b : Byte) : TableRow.Statement (.nopImm80 b) := tableRow_of 0x80 (.two .nopImm80) rfl rfl rfl rfl
theorem TableRow.nopImm82 (b : Byte) : TableRow.Statement (.nopImm82 b) := tableRow_of 0x82 (.two .nopImm82) rfl rfl rfl rfl
theorem TableRow.nopImm89 (b : Byte) : TableRow.Statement (.nopImm89 b) := tableRow_of 0x89 (.two .nopImm89) rfl rfl rfl rfl
theorem TableRow.nopImmC2 (b : Byte) : TableRow.Statement (.nopImmC2 b) := tableRow_of 0xC2 (.two .nopImmC2) rfl rfl rfl rfl
theorem TableRow.nopZpXD4 (b : Byte) : TableRow.Statement (.nopZpXD4 b) := tableRow_of 0xD4 (.two .nopZpXD4) rfl rfl rfl rfl
theorem TableRow.nopImpDA : TableRow.Statement .nopImpDA := tableRow_of 0xDA (.one .nopImpDA) rfl rfl rfl rfl
theorem TableRow.nopAbsXDC (w : Addr) : TableRow.Statement (.nopAbsXDC w) :=
  tableRow_of 0xDC (.three .nopAbsXDC) rfl rfl rfl (congrArg (fun v => some (Instr.nopAbsXDC v)) (hiLo_hi8_lo8 w))
theorem TableRow.nopImmE2 (b : Byte) : TableRow.Statement (.nopImmE2 b) := tableRow_of 0xE2 (.two .nopImmE2) rfl rfl rfl rfl
theorem TableRow.nopZpXF4 (b : Byte) : TableRow.Statement (.nopZpXF4 b) := tableRow_of 0xF4 (.two .nopZpXF4) rfl rfl rfl rfl
theorem TableRow.nopImpFA : TableRow.Statement .nopImpFA := tableRow_of 0xFA (.one .nopImpFA) rfl rfl rfl rfl
theorem TableRow.nopAbsXFC (w : Addr) : TableRow.Statement (.nopAbsXFC w) :=
  tableRow_of 0xFC (.three .nopAbsXFC) rfl rfl rfl (congrArg (fun v => some (Instr.nopAbsXFC v)) (hiLo_hi8_lo8 w))

end Sys2Proof.Laws
end

