-- ==== Sys2Proof/Laws/Decode.lean ====
section
/-! SUPPORT. The opcode map read the other way: what a cell of the map encodes to, and how a 16-bit operand splits. -/

namespace Sys2Proof.Laws

@[simp] theorem lo8_hiLo (hi lo : Byte) : lo8 (hiLo hi lo) = lo := by
  apply BitVec.eq_of_getLsbD_eq
  intro k hk
  simp only [hiLo, lo8, BitVec.getLsbD_append, BitVec.getLsbD_extractLsb', Nat.zero_add]
  simp [hk]

@[simp] theorem hi8_hiLo (hi lo : Byte) : hi8 (hiLo hi lo) = hi := by
  apply BitVec.eq_of_getLsbD_eq
  intro k hk
  simp only [hiLo, hi8, BitVec.getLsbD_append, BitVec.getLsbD_extractLsb']
  simp [hk]

theorem hiLo_toNat (hi lo : Byte) : (hiLo hi lo).toNat = hi.toNat * 256 + lo.toNat := by
  have h : (hiLo hi lo).toNat = hi.toNat <<< 8 ||| lo.toNat := by
    simp only [hiLo, BitVec.toNat_append]
  have hlo := lo.isLt
  rw [h, ← Nat.shiftLeft_add_eq_or_of_lt (by omega), Nat.shiftLeft_eq]

/-- What a cell of the map at an opcode must be: the instructions it gives have that opcode and the bytes supplied. -/
def CellSound (opc : Byte) : Option Template → Prop
  | none => True
  | some (.one i) => i.opcode = opc ∧ i.operand.bytes = []
  | some (.two f) => ∀ b, (f b).opcode = opc ∧ (f b).operand.bytes = [b]
  | some (.three f) => ∀ w, (f w).opcode = opc ∧ (f w).operand.bytes = [lo8 w, hi8 w]

/-- Every cell of the map agrees with the encoder, which was written from the instructions' own rules. -/
theorem tableCell_sound (opc : Byte) : CellSound opc (tableCell opc) := by
  have h : ∀ n < 256, CellSound (BitVec.ofNat 8 n) (tableCell (BitVec.ofNat 8 n)) := by
    intro n hn
    interval_cases n
    all_goals first
      | exact trivial
      | exact ⟨rfl, rfl⟩
      | exact fun _ => ⟨rfl, rfl⟩
  simpa using h opc.toNat opc.isLt

end Sys2Proof.Laws
end

