-- ==== Sys2Proof/Laws/Flags.lean ====
section
/-! SUPPORT. The flag computations in the terms of the statements: results as numbers, conditions as decisions. -/

namespace Sys2Proof.Machine

theorem beq_eq_decide_toNat (x y : Byte) : (x == y) = decide (x.toNat = y.toNat) := by
  rw [Bool.eq_iff_iff]
  simp [← BitVec.toNat_inj]

/-- SetNZ is what the statements write as `withZN`. -/
theorem Flags.setNZ_eq_withZN (p : Flags) (r : Byte) : p.setNZ r = withZN p r := by
  have h : (r == 0x00) = decide (r.toNat = 0) := beq_eq_decide_toNat r 0x00
  simp only [Flags.setNZ, withZN]
  rw [h, BitVec.msb_eq_getLsbD_last]

/-- The flags of a compare, with the wrapped difference as a number. -/
theorem compareFlags_eq (p : Flags) (r m : Byte) : compareFlags p r m = { p with
    c := decide (m.toNat ≤ r.toNat), z := decide (r.toNat = m.toNat),
    n := (BitVec.ofNat 8 ((r.toNat + 256 - m.toNat) % 256)).getLsbD 7 } := by
  have hd : r - m = BitVec.ofNat 8 ((r.toNat + 256 - m.toNat) % 256) := by
    apply BitVec.eq_of_toNat_eq
    have := r.isLt
    have := m.isLt
    rw [BitVec.toNat_sub, BitVec.toNat_ofNat]
    omega
  simp only [compareFlags, beq_eq_decide_toNat, hd, BitVec.msb_eq_getLsbD_last]

/-! The four shifts: the result is the byte with the number the rule gives. -/

theorem shiftASL_eq {t r : Byte} (c : Bool) (h : r.toNat = 2 * t.toNat % 256) : shiftASL t c = ⟨r, t.getLsbD 7⟩ := by
  have : t <<< 1 = r := by
    apply BitVec.eq_of_toNat_eq
    rw [h]
    simp [BitVec.toNat_shiftLeft, Nat.shiftLeft_eq, Nat.mul_comm]
  simp [shiftASL, this]

theorem shiftLSR_eq {t r : Byte} (c : Bool) (h : r.toNat = t.toNat / 2) : shiftLSR t c = ⟨r, t.getLsbD 0⟩ := by
  have : t >>> 1 = r := by
    apply BitVec.eq_of_toNat_eq
    rw [h]
    simp [BitVec.toNat_ushiftRight, Nat.shiftRight_eq_div_pow]
  simp [shiftLSR, this]

theorem shiftROL_eq {t r : Byte} {c : Bool} (h : r.toNat = (2 * t.toNat + c.toNat) % 256) :
    shiftROL t c = ⟨r, t.getLsbD 7⟩ := by
  have hb : ∀ c : Bool, (bitByte c).toNat = c.toNat := by decide
  have : (t <<< 1) ||| bitByte c = r := by
    apply BitVec.eq_of_toNat_eq
    have hs : (t <<< 1).toNat = (t.toNat % 128) <<< 1 := by
      have := t.isLt
      rw [BitVec.toNat_shiftLeft, Nat.shiftLeft_eq, Nat.shiftLeft_eq]
      omega
    have hc : c.toNat < 2 ^ 1 := by cases c <;> decide
    rw [BitVec.toNat_or, hs, hb, ← Nat.shiftLeft_add_eq_or_of_lt hc, Nat.shiftLeft_eq, h]
    omega
  simp [shiftROL, this]

theorem shiftROR_eq {t r : Byte} {c : Bool} (h : r.toNat = t.toNat / 2 + 128 * c.toNat) :
    shiftROR t c = ⟨r, t.getLsbD 0⟩ := by
  have hb : ∀ c : Bool, (bitByte c <<< 7).toNat = c.toNat <<< 7 := by decide
  have : (t >>> 1) ||| (bitByte c <<< 7) = r := by
    apply BitVec.eq_of_toNat_eq
    have ht := t.isLt
    have hs : (t >>> 1).toNat = t.toNat / 2 := by simp [BitVec.toNat_ushiftRight, Nat.shiftRight_eq_div_pow]
    rw [BitVec.toNat_or, hs, hb, Nat.or_comm, ← Nat.shiftLeft_add_eq_or_of_lt (by omega), Nat.shiftLeft_eq, h]
    omega
  simp [shiftROR, this]

end Sys2Proof.Machine
end

