-- ==== Sys2Proof/Laws/State.lean ====
section
/-! SUPPORT. One lemma for each field of State under each named update, so that no later proof unfolds a record update. -/

namespace Sys2Proof.Machine

variable (s : State)

/-! ### State.withA -/

@[simp] theorem State.withA_a (v : Byte) : (s.withA v).a = v := rfl
@[simp] theorem State.withA_x (v : Byte) : (s.withA v).x = s.x := rfl
@[simp] theorem State.withA_y (v : Byte) : (s.withA v).y = s.y := rfl
@[simp] theorem State.withA_sp (v : Byte) : (s.withA v).sp = s.sp := rfl
@[simp] theorem State.withA_pc (v : Byte) : (s.withA v).pc = s.pc := rfl
@[simp] theorem State.withA_p (v : Byte) : (s.withA v).p = s.p := rfl
@[simp] theorem State.withA_mem (v : Byte) : (s.withA v).mem = s.mem := rfl
@[simp] theorem State.withA_eng (v : Byte) : (s.withA v).eng = s.eng := rfl
@[simp] theorem State.withA_fault (v : Byte) : (s.withA v).fault = s.fault := rfl
@[simp] theorem State.withA_stop (v : Byte) : (s.withA v).stop = s.stop := rfl
@[simp] theorem State.withA_refused (v : Byte) : (s.withA v).refused = s.refused := rfl
@[simp] theorem State.withA_cfg (v : Byte) : (s.withA v).cfg = s.cfg := rfl
@[simp] theorem State.withA_code (v : Byte) : (s.withA v).code = s.code := rfl

/-! ### State.withX -/

@[simp] theorem State.withX_a (v : Byte) : (s.withX v).a = s.a := rfl
@[simp] theorem State.withX_x (v : Byte) : (s.withX v).x = v := rfl
@[simp] theorem State.withX_y (v : Byte) : (s.withX v).y = s.y := rfl
@[simp] theorem State.withX_sp (v : Byte) : (s.withX v).sp = s.sp := rfl
@[simp] theorem State.withX_pc (v : Byte) : (s.withX v).pc = s.pc := rfl
@[simp] theorem State.withX_p (v : Byte) : (s.withX v).p = s.p := rfl
@[simp] theorem State.withX_mem (v : Byte) : (s.withX v).mem = s.mem := rfl
@[simp] theorem State.withX_eng (v : Byte) : (s.withX v).eng = s.eng := rfl
@[simp] theorem State.withX_fault (v : Byte) : (s.withX v).fault = s.fault := rfl
@[simp] theorem State.withX_stop (v : Byte) : (s.withX v).stop = s.stop := rfl
@[simp] theorem State.withX_refused (v : Byte) : (s.withX v).refused = s.refused := rfl
@[simp] theorem State.withX_cfg (v : Byte) : (s.withX v).cfg = s.cfg := rfl
@[simp] theorem State.withX_code (v : Byte) : (s.withX v).code = s.code := rfl

/-! ### State.withY -/

@[simp] theorem State.withY_a (v : Byte) : (s.withY v).a = s.a := rfl
@[simp] theorem State.withY_x (v : Byte) : (s.withY v).x = s.x := rfl
@[simp] theorem State.withY_y (v : Byte) : (s.withY v).y = v := rfl
@[simp] theorem State.withY_sp (v : Byte) : (s.withY v).sp = s.sp := rfl
@[simp] theorem State.withY_pc (v : Byte) : (s.withY v).pc = s.pc := rfl
@[simp] theorem State.withY_p (v : Byte) : (s.withY v).p = s.p := rfl
@[simp] theorem State.withY_mem (v : Byte) : (s.withY v).mem = s.mem := rfl
@[simp] theorem State.withY_eng (v : Byte) : (s.withY v).eng = s.eng := rfl
@[simp] theorem State.withY_fault (v : Byte) : (s.withY v).fault = s.fault := rfl
@[simp] theorem State.withY_stop (v : Byte) : (s.withY v).stop = s.stop := rfl
@[simp] theorem State.withY_refused (v : Byte) : (s.withY v).refused = s.refused := rfl
@[simp] theorem State.withY_cfg (v : Byte) : (s.withY v).cfg = s.cfg := rfl
@[simp] theorem State.withY_code (v : Byte) : (s.withY v).code = s.code := rfl

/-! ### State.withSP -/

@[simp] theorem State.withSP_a (v : Byte) : (s.withSP v).a = s.a := rfl
@[simp] theorem State.withSP_x (v : Byte) : (s.withSP v).x = s.x := rfl
@[simp] theorem State.withSP_y (v : Byte) : (s.withSP v).y = s.y := rfl
@[simp] theorem State.withSP_sp (v : Byte) : (s.withSP v).sp = v := rfl
@[simp] theorem State.withSP_pc (v : Byte) : (s.withSP v).pc = s.pc := rfl
@[simp] theorem State.withSP_p (v : Byte) : (s.withSP v).p = s.p := rfl
@[simp] theorem State.withSP_mem (v : Byte) : (s.withSP v).mem = s.mem := rfl
@[simp] theorem State.withSP_eng (v : Byte) : (s.withSP v).eng = s.eng := rfl
@[simp] theorem State.withSP_fault (v : Byte) : (s.withSP v).fault = s.fault := rfl
@[simp] theorem State.withSP_stop (v : Byte) : (s.withSP v).stop = s.stop := rfl
@[simp] theorem State.withSP_refused (v : Byte) : (s.withSP v).refused = s.refused := rfl
@[simp] theorem State.withSP_cfg (v : Byte) : (s.withSP v).cfg = s.cfg := rfl
@[simp] theorem State.withSP_code (v : Byte) : (s.withSP v).code = s.code := rfl

/-! ### State.withPC -/

@[simp] theorem State.withPC_a (v : Addr) : (s.withPC v).a = s.a := rfl
@[simp] theorem State.withPC_x (v : Addr) : (s.withPC v).x = s.x := rfl
@[simp] theorem State.withPC_y (v : Addr) : (s.withPC v).y = s.y := rfl
@[simp] theorem State.withPC_sp (v : Addr) : (s.withPC v).sp = s.sp := rfl
@[simp] theorem State.withPC_pc (v : Addr) : (s.withPC v).pc = v := rfl
@[simp] theorem State.withPC_p (v : Addr) : (s.withPC v).p = s.p := rfl
@[simp] theorem State.withPC_mem (v : Addr) : (s.withPC v).mem = s.mem := rfl
@[simp] theorem State.withPC_eng (v : Addr) : (s.withPC v).eng = s.eng := rfl
@[simp] theorem State.withPC_fault (v : Addr) : (s.withPC v).fault = s.fault := rfl
@[simp] theorem State.withPC_stop (v : Addr) : (s.withPC v).stop = s.stop := rfl
@[simp] theorem State.withPC_refused (v : Addr) : (s.withPC v).refused = s.refused := rfl
@[simp] theorem State.withPC_cfg (v : Addr) : (s.withPC v).cfg = s.cfg := rfl
@[simp] theorem State.withPC_code (v : Addr) : (s.withPC v).code = s.code := rfl

/-! ### State.withP -/

@[simp] theorem State.withP_a (v : Flags) : (s.withP v).a = s.a := rfl
@[simp] theorem State.withP_x (v : Flags) : (s.withP v).x = s.x := rfl
@[simp] theorem State.withP_y (v : Flags) : (s.withP v).y = s.y := rfl
@[simp] theorem State.withP_sp (v : Flags) : (s.withP v).sp = s.sp := rfl
@[simp] theorem State.withP_pc (v : Flags) : (s.withP v).pc = s.pc := rfl
@[simp] theorem State.withP_p (v : Flags) : (s.withP v).p = v := rfl
@[simp] theorem State.withP_mem (v : Flags) : (s.withP v).mem = s.mem := rfl
@[simp] theorem State.withP_eng (v : Flags) : (s.withP v).eng = s.eng := rfl
@[simp] theorem State.withP_fault (v : Flags) : (s.withP v).fault = s.fault := rfl
@[simp] theorem State.withP_stop (v : Flags) : (s.withP v).stop = s.stop := rfl
@[simp] theorem State.withP_refused (v : Flags) : (s.withP v).refused = s.refused := rfl
@[simp] theorem State.withP_cfg (v : Flags) : (s.withP v).cfg = s.cfg := rfl
@[simp] theorem State.withP_code (v : Flags) : (s.withP v).code = s.code := rfl

/-! ### State.withMem -/

@[simp] theorem State.withMem_a (m : Memory) : (s.withMem m).a = s.a := rfl
@[simp] theorem State.withMem_x (m : Memory) : (s.withMem m).x = s.x := rfl
@[simp] theorem State.withMem_y (m : Memory) : (s.withMem m).y = s.y := rfl
@[simp] theorem State.withMem_sp (m : Memory) : (s.withMem m).sp = s.sp := rfl
@[simp] theorem State.withMem_pc (m : Memory) : (s.withMem m).pc = s.pc := rfl
@[simp] theorem State.withMem_p (m : Memory) : (s.withMem m).p = s.p := rfl
@[simp] theorem State.withMem_mem (m : Memory) : (s.withMem m).mem = m := rfl
@[simp] theorem State.withMem_eng (m : Memory) : (s.withMem m).eng = s.eng := rfl
@[simp] theorem State.withMem_fault (m : Memory) : (s.withMem m).fault = s.fault := rfl
@[simp] theorem State.withMem_stop (m : Memory) : (s.withMem m).stop = s.stop := rfl
@[simp] theorem State.withMem_refused (m : Memory) : (s.withMem m).refused = s.refused := rfl
@[simp] theorem State.withMem_cfg (m : Memory) : (s.withMem m).cfg = s.cfg := rfl
@[simp] theorem State.withMem_code (m : Memory) : (s.withMem m).code = s.code := rfl

/-! ### State.setNZ -/

@[simp] theorem State.setNZ_a (v : Byte) : (s.setNZ v).a = s.a := rfl
@[simp] theorem State.setNZ_x (v : Byte) : (s.setNZ v).x = s.x := rfl
@[simp] theorem State.setNZ_y (v : Byte) : (s.setNZ v).y = s.y := rfl
@[simp] theorem State.setNZ_sp (v : Byte) : (s.setNZ v).sp = s.sp := rfl
@[simp] theorem State.setNZ_pc (v : Byte) : (s.setNZ v).pc = s.pc := rfl
@[simp] theorem State.setNZ_p (v : Byte) : (s.setNZ v).p = s.p.setNZ v := rfl
@[simp] theorem State.setNZ_mem (v : Byte) : (s.setNZ v).mem = s.mem := rfl
@[simp] theorem State.setNZ_eng (v : Byte) : (s.setNZ v).eng = s.eng := rfl
@[simp] theorem State.setNZ_fault (v : Byte) : (s.setNZ v).fault = s.fault := rfl
@[simp] theorem State.setNZ_stop (v : Byte) : (s.setNZ v).stop = s.stop := rfl
@[simp] theorem State.setNZ_refused (v : Byte) : (s.setNZ v).refused = s.refused := rfl
@[simp] theorem State.setNZ_cfg (v : Byte) : (s.setNZ v).cfg = s.cfg := rfl
@[simp] theorem State.setNZ_code (v : Byte) : (s.setNZ v).code = s.code := rfl

/-! ### State.setC -/

@[simp] theorem State.setC_a (b : Bool) : (s.setC b).a = s.a := rfl
@[simp] theorem State.setC_x (b : Bool) : (s.setC b).x = s.x := rfl
@[simp] theorem State.setC_y (b : Bool) : (s.setC b).y = s.y := rfl
@[simp] theorem State.setC_sp (b : Bool) : (s.setC b).sp = s.sp := rfl
@[simp] theorem State.setC_pc (b : Bool) : (s.setC b).pc = s.pc := rfl
@[simp] theorem State.setC_p (b : Bool) : (s.setC b).p = { s.p with c := b } := rfl
@[simp] theorem State.setC_mem (b : Bool) : (s.setC b).mem = s.mem := rfl
@[simp] theorem State.setC_eng (b : Bool) : (s.setC b).eng = s.eng := rfl
@[simp] theorem State.setC_fault (b : Bool) : (s.setC b).fault = s.fault := rfl
@[simp] theorem State.setC_stop (b : Bool) : (s.setC b).stop = s.stop := rfl
@[simp] theorem State.setC_refused (b : Bool) : (s.setC b).refused = s.refused := rfl
@[simp] theorem State.setC_cfg (b : Bool) : (s.setC b).cfg = s.cfg := rfl
@[simp] theorem State.setC_code (b : Bool) : (s.setC b).code = s.code := rfl

/-! ### State.haltOnError -/

@[simp] theorem State.haltOnError_a (e : ErrorRecord) : (s.haltOnError e).a = s.a := rfl
@[simp] theorem State.haltOnError_x (e : ErrorRecord) : (s.haltOnError e).x = s.x := rfl
@[simp] theorem State.haltOnError_y (e : ErrorRecord) : (s.haltOnError e).y = s.y := rfl
@[simp] theorem State.haltOnError_sp (e : ErrorRecord) : (s.haltOnError e).sp = s.sp := rfl
@[simp] theorem State.haltOnError_pc (e : ErrorRecord) : (s.haltOnError e).pc = s.pc := rfl
@[simp] theorem State.haltOnError_p (e : ErrorRecord) : (s.haltOnError e).p = s.p := rfl
@[simp] theorem State.haltOnError_mem (e : ErrorRecord) : (s.haltOnError e).mem = s.mem := rfl
@[simp] theorem State.haltOnError_eng (e : ErrorRecord) : (s.haltOnError e).eng = .halted := rfl
@[simp] theorem State.haltOnError_fault (e : ErrorRecord) : (s.haltOnError e).fault = some e := rfl
@[simp] theorem State.haltOnError_stop (e : ErrorRecord) : (s.haltOnError e).stop = s.stop := rfl
@[simp] theorem State.haltOnError_refused (e : ErrorRecord) : (s.haltOnError e).refused = s.refused := rfl
@[simp] theorem State.haltOnError_cfg (e : ErrorRecord) : (s.haltOnError e).cfg = s.cfg := rfl
@[simp] theorem State.haltOnError_code (e : ErrorRecord) : (s.haltOnError e).code = s.code := rfl

/-! ### State.haltOnStop -/

@[simp] theorem State.haltOnStop_a (r : StopRecord) : (s.haltOnStop r).a = s.a := rfl
@[simp] theorem State.haltOnStop_x (r : StopRecord) : (s.haltOnStop r).x = s.x := rfl
@[simp] theorem State.haltOnStop_y (r : StopRecord) : (s.haltOnStop r).y = s.y := rfl
@[simp] theorem State.haltOnStop_sp (r : StopRecord) : (s.haltOnStop r).sp = s.sp := rfl
@[simp] theorem State.haltOnStop_pc (r : StopRecord) : (s.haltOnStop r).pc = s.pc := rfl
@[simp] theorem State.haltOnStop_p (r : StopRecord) : (s.haltOnStop r).p = s.p := rfl
@[simp] theorem State.haltOnStop_mem (r : StopRecord) : (s.haltOnStop r).mem = s.mem := rfl
@[simp] theorem State.haltOnStop_eng (r : StopRecord) : (s.haltOnStop r).eng = .halted := rfl
@[simp] theorem State.haltOnStop_fault (r : StopRecord) : (s.haltOnStop r).fault = s.fault := rfl
@[simp] theorem State.haltOnStop_stop (r : StopRecord) : (s.haltOnStop r).stop = some r := rfl
@[simp] theorem State.haltOnStop_refused (r : StopRecord) : (s.haltOnStop r).refused = s.refused := rfl
@[simp] theorem State.haltOnStop_cfg (r : StopRecord) : (s.haltOnStop r).cfg = s.cfg := rfl
@[simp] theorem State.haltOnStop_code (r : StopRecord) : (s.haltOnStop r).code = s.code := rfl

/-! ### State.haltOnRefusal -/

@[simp] theorem State.haltOnRefusal_a : (s.haltOnRefusal).a = s.a := rfl
@[simp] theorem State.haltOnRefusal_x : (s.haltOnRefusal).x = s.x := rfl
@[simp] theorem State.haltOnRefusal_y : (s.haltOnRefusal).y = s.y := rfl
@[simp] theorem State.haltOnRefusal_sp : (s.haltOnRefusal).sp = s.sp := rfl
@[simp] theorem State.haltOnRefusal_pc : (s.haltOnRefusal).pc = s.pc := rfl
@[simp] theorem State.haltOnRefusal_p : (s.haltOnRefusal).p = s.p := rfl
@[simp] theorem State.haltOnRefusal_mem : (s.haltOnRefusal).mem = s.mem := rfl
@[simp] theorem State.haltOnRefusal_eng : (s.haltOnRefusal).eng = .halted := rfl
@[simp] theorem State.haltOnRefusal_fault : (s.haltOnRefusal).fault = s.fault := rfl
@[simp] theorem State.haltOnRefusal_stop : (s.haltOnRefusal).stop = s.stop := rfl
@[simp] theorem State.haltOnRefusal_refused : (s.haltOnRefusal).refused = true := rfl
@[simp] theorem State.haltOnRefusal_cfg : (s.haltOnRefusal).cfg = s.cfg := rfl
@[simp] theorem State.haltOnRefusal_code : (s.haltOnRefusal).code = s.code := rfl

/-! ### Flags.setNZ -/

variable (p : Flags) (v : Byte)

@[simp] theorem Flags.setNZ_c : (p.setNZ v).c = p.c := rfl
@[simp] theorem Flags.setNZ_z : (p.setNZ v).z = (v == 0x00) := rfl
@[simp] theorem Flags.setNZ_i : (p.setNZ v).i = p.i := rfl
@[simp] theorem Flags.setNZ_d : (p.setNZ v).d = p.d := rfl
@[simp] theorem Flags.setNZ_b : (p.setNZ v).b = p.b := rfl
@[simp] theorem Flags.setNZ_v : (p.setNZ v).v = p.v := rfl
@[simp] theorem Flags.setNZ_n : (p.setNZ v).n = v.msb := rfl

/-! ### Staged results -/

@[simp] theorem staged_bind_ok {α β : Type} (a : α) (f : α → Staged β) : ((Except.ok a : Staged α) >>= f) = f a := rfl

@[simp] theorem staged_bind_error {α β : Type} (e : Abort) (f : α → Staged β) :
    ((Except.error e : Staged α) >>= f) = .error e := rfl

@[simp] theorem staged_pure {α : Type} (a : α) : (pure a : Staged α) = .ok a := rfl

/-- A staged sequence that succeeds has a first part that succeeded. -/
theorem staged_bind_eq_ok {α β : Type} {x : Staged α} {f : α → Staged β} {b : β} (h : (x >>= f) = .ok b) :
    ∃ a, x = .ok a ∧ f a = .ok b := by
  cases x with
  | ok a => exact ⟨a, rfl, h⟩
  | error e => cases h

end Sys2Proof.Machine
end

