-- ==== Sys2Proof/Laws/Memory.lean ====
section
/-! SUPPORT. Data memory: reading after writing, and that every write keeps the canonical form and the range of indices. -/

namespace Sys2Proof.Machine

/-- What `Memory.set` may list: the cells it had, and the written one where its byte needs listing. -/
theorem mem_set_cases {m : Memory} {i : Nat} {v : Byte} {c : Host.Cell} (h : c ∈ Memory.set m i v) :
    c ∈ m ∨ (c = (i, v) ∧ v ≠ Memory.unlisted) := by
  have hcell : ∀ d ∈ Memory.cell i v, d = (i, v) ∧ v ≠ Memory.unlisted := by
    intro d hd
    by_cases hv : v = Memory.unlisted <;> simp_all [Memory.cell]
  induction m with
  | nil => exact .inr (hcell c h)
  | cons d m ih =>
    obtain ⟨k, w⟩ := d
    simp only [Memory.set] at h
    split at h
    · rcases List.mem_append.mp h with h | h
      · exact .inr (hcell c h)
      · exact .inl h
    · split at h
      · rcases List.mem_append.mp h with h | h
        · exact .inr (hcell c h)
        · exact .inl (List.mem_cons_of_mem _ h)
      · rcases List.mem_cons.mp h with rfl | h
        · exact .inl List.mem_cons_self
        · rcases ih h with h | h
          · exact .inl (List.mem_cons_of_mem _ h)
          · exact .inr h

/-- A write keeps the canonical form. -/
theorem Memory.wf_set {m : Memory} (h : m.wf) (i : Nat) (v : Byte) : (m.set i v).wf := by
  refine ⟨?_, fun c hc => ?_⟩
  · have hcell : (Memory.cell i v).Pairwise (fun c d => c.1 < d.1) := by
      unfold Memory.cell; split <;> simp
    have hkey : ∀ c ∈ Memory.cell i v, c.1 = i := by
      unfold Memory.cell; split <;> simp
    induction m with
    | nil => exact hcell
    | cons d m ih =>
      obtain ⟨k, w⟩ := d
      have hrest := List.pairwise_cons.mp h.1
      simp only [Memory.set]
      split
      · rename_i hlt
        refine List.pairwise_append.mpr ⟨hcell, h.1, fun c hc d hd => ?_⟩
        rw [hkey c hc]
        rcases List.mem_cons.mp hd with rfl | hd
        · exact hlt
        · exact lt_trans hlt (hrest.1 d hd)
      · split
        · rename_i _ heq
          refine List.pairwise_append.mpr ⟨hcell, hrest.2, fun c hc d hd => ?_⟩
          rw [hkey c hc, heq]
          exact hrest.1 d hd
        · rename_i hnlt hne
          have hwf : Memory.wf m := ⟨hrest.2, fun c hc => h.2 c (List.mem_cons_of_mem _ hc)⟩
          refine List.pairwise_cons.mpr ⟨fun c hc => ?_, ih hwf⟩
          rcases mem_set_cases hc with hc | ⟨rfl, _⟩
          · exact hrest.1 c hc
          · show k < i
            omega
  · rcases mem_set_cases hc with hc | ⟨rfl, hv⟩
    · exact h.2 c hc
    · exact hv

/-- A write to another index leaves a read as it was, whatever the memory. -/
theorem Memory.get_set_of_ne (m : Memory) {i j : Nat} (v : Byte) (h : i ≠ j) : (m.set i v).get j = m.get j := by
  have hcell : ∀ n : Memory, Memory.get (Memory.cell i v ++ n) j = Memory.get n j := by
    intro n
    unfold Memory.cell
    split <;> simp [Memory.get, h]
  induction m with
  | nil => simpa [Memory.set] using hcell []
  | cons d m ih =>
    obtain ⟨k, w⟩ := d
    simp only [Memory.set]
    split
    · exact hcell _
    · split
      · rename_i _ heq
        rw [hcell, Memory.get, if_neg (by omega)]
      · simp only [Memory.get, ih]

/-- An index below every listed one is not listed. -/
theorem Memory.get_of_lt_all {m : Memory} {i : Nat} (h : ∀ c ∈ m, i < c.1) : m.get i = Memory.unlisted := by
  induction m with
  | nil => rfl
  | cons d m ih =>
    obtain ⟨k, w⟩ := d
    have hk : i < k := h (k, w) List.mem_cons_self
    rw [Memory.get, if_neg (by omega)]
    exact ih fun c hc => h c (List.mem_cons_of_mem _ hc)

/-- A read of the written index gives the written byte, in a canonical memory. -/
theorem Memory.get_set_self {m : Memory} (h : m.wf) (i : Nat) (v : Byte) : (m.set i v).get i = v := by
  have hcell : ∀ n : Memory, (∀ c ∈ n, i < c.1) → Memory.get (Memory.cell i v ++ n) i = v := by
    intro n hn
    unfold Memory.cell
    split
    · rename_i hv
      simpa [hv] using Memory.get_of_lt_all hn
    · simp [Memory.get]
  induction m with
  | nil => simpa [Memory.set] using hcell []
  | cons d m ih =>
    obtain ⟨k, w⟩ := d
    have hrest := List.pairwise_cons.mp h.1
    simp only [Memory.set]
    split
    · rename_i hlt
      refine hcell _ fun c hc => ?_
      rcases List.mem_cons.mp hc with rfl | hc
      · exact hlt
      · exact lt_trans hlt (hrest.1 c hc)
    · split
      · rename_i _ heq
        refine hcell _ fun c hc => ?_
        rw [heq]
        exact hrest.1 c hc
      · rename_i _ hne
        rw [Memory.get, if_neg (Ne.symm hne)]
        exact ih ⟨hrest.2, fun c hc => h.2 c (List.mem_cons_of_mem _ hc)⟩

/-- Read after write, in one line. -/
theorem Memory.get_set {m : Memory} (h : m.wf) (i j : Nat) (v : Byte) :
    (m.set i v).get j = if i = j then v else m.get j := by
  by_cases hij : i = j
  · subst hij
    rw [if_pos rfl, Memory.get_set_self h]
  · rw [if_neg hij, Memory.get_set_of_ne m v hij]

/-- Two canonical memories that read alike are the same list. -/
theorem Memory.ext_get {m n : Memory} (hm : m.wf) (hn : n.wf) (h : ∀ i, m.get i = n.get i) : m = n := by
  have hlist : ∀ {l : Memory} {k : Nat} {w : Byte}, l.Pairwise (fun c d => c.1 < d.1) → (k, w) ∈ l → l.get k = w := by
    intro l k w hl hin
    induction l with
    | nil => cases hin
    | cons d l ih =>
      obtain ⟨k', w'⟩ := d
      have hrest := List.pairwise_cons.mp hl
      rcases List.mem_cons.mp hin with heq | hin
      · cases heq; simp [Memory.get]
      · have : k' < k := hrest.1 _ hin
        rw [Memory.get, if_neg (by omega)]
        exact ih hrest.2 hin
  have hsub : ∀ {l r : Memory}, l.wf → r.wf → (∀ i, l.get i = r.get i) → ∀ c ∈ l, c ∈ r := by
    intro l r hl hr hlr c hc
    obtain ⟨k, w⟩ := c
    have hw : l.get k = w := hlist hl.1 hc
    have hne : w ≠ Memory.unlisted := hl.2 _ hc
    by_contra hnot
    have hget : ∀ {q : Memory}, (∀ u, (k, u) ∉ q) → q.get k = Memory.unlisted := by
      intro q hq
      induction q with
      | nil => rfl
      | cons d q ih =>
        obtain ⟨k', w'⟩ := d
        have hk : k' ≠ k := fun hk => hq w' (hk ▸ List.mem_cons_self)
        rw [Memory.get, if_neg hk]
        exact ih fun u hu => hq u (List.mem_cons_of_mem _ hu)
    by_cases hex : ∃ u, (k, u) ∈ r
    · obtain ⟨u, hu⟩ := hex
      have : r.get k = u := hlist hr.1 hu
      rw [← hlr, hw] at this
      exact hnot (this ▸ hu)
    · have hr0 : r.get k = Memory.unlisted := hget fun u hu => hex ⟨u, hu⟩
      exact hne (by rw [← hw, hlr, hr0])
  have hnodup : ∀ {l : Memory}, l.wf → l.Nodup := fun hl => hl.1.imp fun hlt heq => by
    rw [heq] at hlt; exact lt_irrefl _ hlt
  have hperm : m.Perm n := (List.perm_ext_iff_of_nodup (hnodup hm) (hnodup hn)).mpr fun c =>
    ⟨hsub hm hn h c, hsub hn hm (fun i => (h i).symm) c⟩
  exact hperm.eq_of_pairwise (fun a b _ _ hab hba => absurd hba (Nat.lt_asymm hab)) hm.1 hn.1

/-- A write keeps every listed index below a bound that the written index keeps. -/
theorem Memory.keys_set {m : Memory} {i n : Nat} {v : Byte} (hm : ∀ c ∈ m, c.1 < n) (hi : i < n) :
    ∀ c ∈ m.set i v, c.1 < n := by
  intro c hc
  rcases mem_set_cases hc with hc | ⟨rfl, _⟩
  · exact hm c hc
  · exact hi

end Sys2Proof.Machine
end

