-- ==== Sys2Proof/Laws/Ops.lean ====
section
/-! SUPPORT. What each shared operation can do, said once: Map, MemRead, MemWrite, the stack primitives, trap entry and return,
and the execute phase. -/

namespace Sys2Proof.Machine

/-! ## Map -/

theorem memSize_ge (k : MemSize) : 512 ≤ k.bytes := by cases k <;> decide

theorem memSize_le (k : MemSize) : k.bytes ≤ 65536 := by cases k <;> decide

theorem mapAddr_of_lt {cfg : Config} {a : Addr} (h : a.toNat < cfg.memSize.bytes) : mapAddr cfg a = .ok a.toNat := by
  simp [mapAddr, h]

/-- An index Map gives lies in memory. -/
theorem mapAddr_lt {cfg : Config} {a : Addr} {i : Nat} (h : mapAddr cfg a = .ok i) : i < cfg.memSize.bytes := by
  unfold mapAddr at h
  split at h
  · cases h; assumption
  · split at h
    · cases h
      exact Nat.mod_lt _ (by have := memSize_ge cfg.memSize; omega)
    · cases h

/-- The only failure of Map is OutOfBoundsAddress of its address, under OOB_POLICY = error, at or beyond MEM_SIZE. -/
theorem mapAddr_error {cfg : Config} {a : Addr} {e : Abort} (h : mapAddr cfg a = .error e) :
    e = .raise (.outOfBoundsAddress a) ∧ cfg.oobPolicy = .error ∧ cfg.memSize.bytes ≤ a.toNat := by
  unfold mapAddr at h
  split at h
  · cases h
  · split at h
    · cases h
    · rename_i hlt _ hp
      cases h
      exact ⟨rfl, hp, by omega⟩

@[simp] theorem zeroPage_toNat (b : Byte) : (zeroPage b).toNat = b.toNat := by
  simp [zeroPage, BitVec.toNat_setWidth]
  omega

@[simp] theorem stackAddr_toNat (sp : Byte) : (stackAddr sp).toNat = stackIndex sp := by
  have := sp.isLt
  simp [stackAddr, stackIndex, BitVec.toNat_add, BitVec.toNat_setWidth]
  omega

theorem stackIndex_lt (sp : Byte) : stackIndex sp < 512 := by
  have := sp.isLt
  simp only [stackIndex]; omega

theorem stackIndex_inj {p q : Byte} : stackIndex p = stackIndex q ↔ p = q := by
  simp [stackIndex, BitVec.toNat_inj]

@[simp] theorem mapAddr_zeroPage (cfg : Config) (b : Byte) : mapAddr cfg (zeroPage b) = .ok b.toNat := by
  have h := mapAddr_of_lt (cfg := cfg) (a := zeroPage b)
    (by have := memSize_ge cfg.memSize; have := b.isLt; rw [zeroPage_toNat]; omega)
  rwa [zeroPage_toNat] at h

@[simp] theorem mapAddr_stackAddr (cfg : Config) (sp : Byte) : mapAddr cfg (stackAddr sp) = .ok (stackIndex sp) := by
  have h := mapAddr_of_lt (cfg := cfg) (a := stackAddr sp)
    (by have := memSize_ge cfg.memSize; have := stackIndex_lt sp; rw [stackAddr_toNat]; omega)
  rwa [stackAddr_toNat] at h

/-! ## MemRead and MemWrite -/

theorem memRead_of_map {s : State} {a : Addr} {i : Nat} (h : mapAddr s.cfg a = .ok i) :
    memRead s a = .ok (s.mem.get i) := by
  simp [memRead, h]

theorem memWrite_of_map {s : State} {a : Addr} {i : Nat} (h : mapAddr s.cfg a = .ok i) (v : Byte) :
    memWrite s a v = .ok (s.withMem (s.mem.set i v)) := by
  simp [memWrite, h]

theorem memRead_eq_ok {s : State} {a : Addr} {v : Byte} (h : memRead s a = .ok v) :
    ∃ i, mapAddr s.cfg a = .ok i ∧ v = s.mem.get i := by
  obtain ⟨i, hi, hv⟩ := staged_bind_eq_ok h
  cases hv
  exact ⟨i, hi, rfl⟩

theorem memWrite_eq_ok {s t : State} {a : Addr} {v : Byte} (h : memWrite s a v = .ok t) :
    ∃ i, mapAddr s.cfg a = .ok i ∧ t = s.withMem (s.mem.set i v) := by
  obtain ⟨i, hi, ht⟩ := staged_bind_eq_ok h
  cases ht
  exact ⟨i, hi, rfl⟩

/-- A read fails only where Map fails, and then as Map does. -/
theorem memRead_error {s : State} {a : Addr} {e : Abort} : memRead s a = .error e ↔ mapAddr s.cfg a = .error e := by
  cases h : mapAddr s.cfg a <;> simp [memRead, h]

theorem memWrite_error {s : State} {a : Addr} {v : Byte} {e : Abort} :
    memWrite s a v = .error e ↔ mapAddr s.cfg a = .error e := by
  cases h : mapAddr s.cfg a <;> simp [memWrite, h]

/-- A read depends on the configuration and the memory alone. -/
theorem memRead_congr {s t : State} (hc : t.cfg = s.cfg) (hm : t.mem = s.mem) (a : Addr) : memRead t a = memRead s a := by
  simp [memRead, hc, hm]

@[simp] theorem memRead_withPC (s : State) (v : Addr) (a : Addr) : memRead (s.withPC v) a = memRead s a := rfl
@[simp] theorem memRead_withP (s : State) (p : Flags) (a : Addr) : memRead (s.withP p) a = memRead s a := rfl
@[simp] theorem memRead_zeroPage (s : State) (b : Byte) : memRead s (zeroPage b) = .ok (s.mem.get b.toNat) :=
  memRead_of_map (mapAddr_zeroPage _ _)
@[simp] theorem memRead_stackAddr (s : State) (sp : Byte) : memRead s (stackAddr sp) = .ok (s.mem.get (stackIndex sp)) :=
  memRead_of_map (mapAddr_stackAddr _ _)
@[simp] theorem memWrite_stackAddr (s : State) (sp v : Byte) :
    memWrite s (stackAddr sp) v = .ok (s.withMem (s.mem.set (stackIndex sp) v)) :=
  memWrite_of_map (mapAddr_stackAddr _ _) v

/-- A pointer read in page 0 never fails (R503). -/
@[simp] theorem read16ZP_eq (s : State) (p : Byte) :
    read16ZP s p = .ok (hiLo (s.mem.get (p + 1).toNat) (s.mem.get p.toNat)) := by
  simp [read16ZP]

/-! ## The stack -/

/-- A push never fails: it writes one stack byte and moves SP. -/
@[simp] theorem push_eq (s : State) (v : Byte) :
    push s v = .ok ((s.withMem (s.mem.set (stackIndex s.sp) v)).withSP (s.sp - 1)) := by
  simp [push]

/-- A pull never fails: it moves SP and reads one stack byte. -/
@[simp] theorem pull_eq (s : State) :
    pull s = .ok (s.mem.get (stackIndex (s.sp + 1)), s.withSP (s.sp + 1)) := by
  simp [pull]

@[simp] theorem pushAddr_eq (s : State) (w : Addr) :
    pushAddr s w = .ok ((s.withMem ((s.mem.set (stackIndex s.sp) (hi8 w)).set (stackIndex (s.sp - 1)) (lo8 w))).withSP
      (s.sp - 1 - 1)) := by
  simp [pushAddr, State.withMem, State.withSP]

@[simp] theorem pullAddr_eq (s : State) :
    pullAddr s = .ok (hiLo (s.mem.get (stackIndex (s.sp + 1 + 1))) (s.mem.get (stackIndex (s.sp + 1))),
      s.withSP (s.sp + 1 + 1)) := by
  simp [pullAddr, State.withSP]

/-- Trap return never fails. -/
theorem returnFromTrap_eq (s : State) :
    returnFromTrap s = .ok (((s.withP (unpackP s.p (s.mem.get (stackIndex (s.sp + 1))))).withSP (s.sp + 1 + 1 + 1)).withPC
      (hiLo (s.mem.get (stackIndex (s.sp + 1 + 1 + 1))) (s.mem.get (stackIndex (s.sp + 1 + 1))))) := by
  simp [returnFromTrap, State.withSP, State.withP, State.withPC]

/-- The memory after the three pushes of a trap entry. -/
def trapMemory (ret : Addr) (s : State) : Memory :=
  ((s.mem.set (stackIndex s.sp) (hi8 ret)).set (stackIndex (s.sp - 1)) (lo8 ret)).set (stackIndex (s.sp - 1 - 1))
    (packP s.p true)

/-- The state after the pushes and the write of P.I, before the vector is read. -/
def trapPushed (ret : Addr) (s : State) : State :=
  ((s.withMem (trapMemory ret s)).withSP (s.sp - 1 - 1 - 1)).withP { s.p with i := true }

/-- Trap entry: the pushes cannot fail, so it is the vector read from the pushed state. -/
theorem takeTrap_eq (ret : Addr) (s : State) :
    takeTrap ret s = (do
      let lo ← memRead (trapPushed ret s) 0xFFFE
      let hi ← memRead (trapPushed ret s) 0xFFFF
      return (trapPushed ret s).withPC (hiLo hi lo)) := by
  simp [takeTrap, trapPushed, trapMemory, State.withMem, State.withSP, State.withP]

/-! ## The execute phase -/

theorem execute_of_ok {len : Nat} {rule : State → Staged State} {s t : State}
    (h : rule (s.withPC (s.pc + BitVec.ofNat 16 len)) = .ok t) : execute len rule s = .next t := by
  simp [execute, h]

theorem execute_of_raise {len : Nat} {rule : State → Staged State} {s : State} {e : ErrorRecord}
    (h : rule (s.withPC (s.pc + BitVec.ofNat 16 len)) = .error (.raise e)) :
    execute len rule s = .next (s.haltOnError e) := by
  simp [execute, h]

theorem execute_of_refuse {len : Nat} {rule : State → Staged State} {s : State}
    (h : rule (s.withPC (s.pc + BitVec.ofNat 16 len)) = .error .refuse) : execute len rule s = .next s.haltOnRefusal := by
  simp [execute, h]

/-- Everything the execute phase can do (R105). -/
theorem execute_cases {len : Nat} {rule : State → Staged State} {s t : State} (h : execute len rule s = .next t) :
    rule (s.withPC (s.pc + BitVec.ofNat 16 len)) = .ok t ∨
    (∃ e, rule (s.withPC (s.pc + BitVec.ofNat 16 len)) = .error (.raise e) ∧ t = s.haltOnError e) ∨
    (rule (s.withPC (s.pc + BitVec.ofNat 16 len)) = .error .refuse ∧ t = s.haltOnRefusal) := by
  unfold execute at h
  split at h
  · cases h; exact .inl ‹_›
  · cases h; exact .inr (.inl ⟨_, ‹_›, rfl⟩)
  · cases h; exact .inr (.inr ⟨‹_›, rfl⟩)

/-- The execute phase always answers a next state. -/
theorem execute_isNext (len : Nat) (rule : State → Staged State) (s : State) : ∃ t, execute len rule s = .next t := by
  unfold execute
  split <;> exact ⟨_, rfl⟩

end Sys2Proof.Machine
end

