-- ==== Sys2Proof/Laws/Operands.lean ====
section
/-! SUPPORT. What the address resolver and the operand accesses can do. -/

namespace Sys2Proof.Machine

/-- The resolver never fails: its only reads are pointer reads in page 0. -/
theorem effAddr_isOk (m : MemMode) (s : State) : ∃ ea, effAddr m s = .ok ea := by
  cases m <;> simp [effAddr]

/-- The resolver depends on X, Y, the configuration and memory alone. -/
@[simp] theorem effAddr_withPC (m : MemMode) (s : State) (v : Addr) : effAddr m (s.withPC v) = effAddr m s := by
  cases m <;> simp [effAddr]

@[simp] theorem readSource_withPC (src : Source) (s : State) (v : Addr) : readSource src (s.withPC v) = readSource src s := by
  cases src <;> simp [readSource]

theorem readSource_mem_eq_ok {m : MemMode} {s : State} {v : Byte} (h : readSource (.mem m) s = .ok v) :
    ∃ ea, effAddr m s = .ok ea ∧ memRead s ea = .ok v :=
  staged_bind_eq_ok h

/-- A store writes the byte at its effective address and changes nothing else. -/
theorem storeTo_of_map {m : MemMode} {s : State} {ea : Addr} {k : Nat} (hea : effAddr m s = .ok ea)
    (hk : mapAddr s.cfg ea = .ok k) (v : Byte) : storeTo m v s = .ok (s.withMem (s.mem.set k v)) := by
  simp [storeTo, hea, memWrite_of_map hk]

theorem storeTo_eq_ok {m : MemMode} {v : Byte} {s t : State} (h : storeTo m v s = .ok t) :
    ∃ ea k, effAddr m s = .ok ea ∧ mapAddr s.cfg ea = .ok k ∧ t = s.withMem (s.mem.set k v) := by
  obtain ⟨ea, hea, h⟩ := staged_bind_eq_ok h
  obtain ⟨k, hk, ht⟩ := memWrite_eq_ok h
  exact ⟨ea, k, hea, hk, ht⟩

/-- A read-modify-write replaces the byte at its effective address and changes nothing else. -/
theorem modifyAt_of_map {m : MemMode} {s : State} {ea : Addr} {k : Nat} (hea : effAddr m s = .ok ea)
    (hk : mapAddr s.cfg ea = .ok k) (f : Byte → Byte) :
    modifyAt m f s = .ok (s.mem.get k, s.withMem (s.mem.set k (f (s.mem.get k)))) := by
  simp [modifyAt, hea, memRead_of_map hk, memWrite_of_map hk]

theorem modifyAt_eq_ok {m : MemMode} {f : Byte → Byte} {s u : State} {t : Byte} (h : modifyAt m f s = .ok (t, u)) :
    ∃ ea k, effAddr m s = .ok ea ∧ mapAddr s.cfg ea = .ok k ∧ t = s.mem.get k ∧
      u = s.withMem (s.mem.set k (f (s.mem.get k))) := by
  obtain ⟨ea, hea⟩ := effAddr_isOk m s
  cases hk : mapAddr s.cfg ea with
  | ok k =>
    rw [modifyAt_of_map hea hk] at h
    cases h
    exact ⟨ea, k, hea, hk, rfl, rfl⟩
  | error e =>
    have hr := memRead_error.mpr hk
    simp [modifyAt, hea, hr] at h

/-- Every operand access fails as Map fails at the effective address, before anything is changed. -/
theorem operand_error {m : MemMode} {s : State} {ea : Addr} {e : Abort} (hea : effAddr m s = .ok ea)
    (he : mapAddr s.cfg ea = .error e) :
    readSource (.mem m) s = .error e ∧ (∀ v, storeTo m v s = .error e) ∧ (∀ f, modifyAt m f s = .error e) := by
  refine ⟨?_, fun v => ?_, fun f => ?_⟩
  · simpa [readSource, hea] using memRead_error.mpr he
  · simpa [storeTo, hea] using memWrite_error.mpr he
  · simp [modifyAt, hea, memRead_error.mpr he]

end Sys2Proof.Machine
end

