-- ==== Sys2Proof/Laws/Rules.lean ====
section
/-! SUPPORT. The meaning of an instruction as one function of its decoded triple, and the proof that `exec` is it: the
statements over a mnemonic's forms go through `exec_of_triple` and never split the 231 constructors again. -/

namespace Sys2Proof.Machine

/-- A rule with a source operand. A mode that is none gives the empty rule; no instruction has such a triple. -/
def onSource (f : Source → State → Staged State) : Operand → State → Staged State
  | .immediate v => f (.imm v)
  | .memory m => f (.mem m)
  | _ => noOperation

/-- A rule with a memory operand. -/
def onMemory (f : MemMode → State → Staged State) : Operand → State → Staged State
  | .memory m => f m
  | _ => noOperation

/-- A rule with a shift operand. -/
def onTarget (f : Target → State → Staged State) : Operand → State → Staged State
  | .accumulator => f .acc
  | .memory m => f (.mem m)
  | _ => noOperation

/-- A rule with a relative operand. -/
def onRelative (f : Byte → State → Staged State) : Operand → State → Staged State
  | .relative off => f off
  | _ => noOperation

/-- The rule of JMP. -/
def onJump : Operand → State → Staged State
  | .memory (.abs w) => jumpTo w
  | .indirect ptr => jumpThrough ptr
  | _ => noOperation

/-- The rule of JSR. -/
def onCall : Operand → State → Staged State
  | .memory (.abs w) => callSub w
  | _ => noOperation

/-- The rule on the staged state that a triple stands for. `s₀` is the state before PC is staged. -/
def ruleOf (m : Mnemonic) (o : Operand) (s₀ : State) : State → Staged State :=
  match m with
  | .lda => onSource loadA o
  | .ldx => onSource loadX o
  | .ldy => onSource loadY o
  | .cmp => onSource compareA o
  | .cpx => onSource compareX o
  | .cpy => onSource compareY o
  | .and => onSource andA o
  | .ora => onSource orA o
  | .eor => onSource eorA o
  | .adc => onSource addToA o
  | .sbc => onSource subFromA o
  | .sbcU => onSource subFromA o
  | .sta => onMemory storeA o
  | .stx => onMemory storeX o
  | .sty => onMemory storeY o
  | .inc => onMemory incMem o
  | .dec => onMemory decMem o
  | .bit => onMemory bitTest o
  | .slo => onMemory shiftLeftOr o
  | .rla => onMemory rotateLeftAnd o
  | .sre => onMemory shiftRightEor o
  | .rra => onMemory rotateRightAdd o
  | .dcp => onMemory decCompare o
  | .isb => onMemory incSub o
  | .lax => onMemory loadAX o
  | .sax => onMemory storeAandX o
  | .asl => onTarget (shiftTarget shiftASL) o
  | .lsr => onTarget (shiftTarget shiftLSR) o
  | .rol => onTarget (shiftTarget shiftROL) o
  | .ror => onTarget (shiftTarget shiftROR) o
  | .bpl => onRelative (branch (!s₀.p.n)) o
  | .bmi => onRelative (branch (s₀.p.n)) o
  | .bvc => onRelative (branch (!s₀.p.v)) o
  | .bvs => onRelative (branch (s₀.p.v)) o
  | .bcc => onRelative (branch (!s₀.p.c)) o
  | .bcs => onRelative (branch (s₀.p.c)) o
  | .bne => onRelative (branch (!s₀.p.z)) o
  | .beq => onRelative (branch (s₀.p.z)) o
  | .jmp => onJump o
  | .jsr => onCall o
  | .brk => takeTrap (s₀.pc + 2)
  | .inx => incX
  | .iny => incY
  | .dex => decX
  | .dey => decY
  | .rts => returnFromSub
  | .rti => returnFromTrap
  | .pha => pushA
  | .php => pushP
  | .pla => pullA
  | .plp => pullP
  | .tax => transferAX
  | .tay => transferAY
  | .txa => transferXA
  | .tya => transferYA
  | .tsx => transferSX
  | .txs => transferXS
  | .clc => clearC
  | .sec => setCarry
  | .cli => clearI
  | .sei => setI
  | .cld => clearD
  | .sed => setD
  | .clv => clearV
  | .nop => noOperation
  | .nopU => noOperation

/-- `exec` runs the rule of the instruction's triple over the length its mode fixes. -/
theorem exec_eq_ruleOf (i : Instr) (s : State) :
    exec i s = execute i.operand.length (ruleOf i.mnemonic i.operand s) s := by
  cases i <;> rfl

theorem exec_of_triple {i : Instr} {m : Mnemonic} {o : Operand} (h : i.triple = (m, o)) (s : State) :
    exec i s = execute o.length (ruleOf m o s) s := by
  have h' := exec_eq_ruleOf i s
  simpa [Instr.mnemonic, Instr.operand, h] using h'

theorem nextPC_of_triple {i : Instr} {m : Mnemonic} {o : Operand} (h : i.triple = (m, o)) (s : State) :
    nextPC s i = s.pc + BitVec.ofNat 16 o.length := by
  simp [nextPC, Instr.length, Instr.operand, h]

end Sys2Proof.Machine
end

