-- ==== Sys2Proof/Laws/Frame.lean ====
section
/-! SUPPORT. What every rule leaves alone, said once: the engine and its records, the session's inputs and P.B are kept, and
memory changes only by writes at indices that Map gives. -/

namespace Sys2Proof.Machine

/-- Memory after a list of writes. -/
def writes (m : Memory) : List (Nat × Byte) → Memory
  | [] => m
  | (i, v) :: ws => writes (m.set i v) ws

/-- What an execute phase never changes, and how memory may change. -/
structure Quiet (s t : State) : Prop where
  eng : t.eng = s.eng
  fault : t.fault = s.fault
  stop : t.stop = s.stop
  refused : t.refused = s.refused
  cfg : t.cfg = s.cfg
  code : t.code = s.code
  flagB : t.p.b = s.p.b
  mem : ∃ ws : List (Nat × Byte), (∀ w ∈ ws, w.1 < s.cfg.memSize.bytes) ∧ t.mem = writes s.mem ws

/-- A state that differs in registers and flags only, P.B and memory kept. -/
theorem Quiet.of_mem_eq {s t : State} (he : t.eng = s.eng) (hf : t.fault = s.fault) (hs : t.stop = s.stop)
    (hr : t.refused = s.refused) (hc : t.cfg = s.cfg) (hd : t.code = s.code) (hb : t.p.b = s.p.b) (hm : t.mem = s.mem) :
    Quiet s t := ⟨he, hf, hs, hr, hc, hd, hb, [], by simp, hm⟩

/-- A state that differs also by one write at an index of memory. -/
theorem Quiet.of_mem_set {s t : State} {i : Nat} {v : Byte} (he : t.eng = s.eng) (hf : t.fault = s.fault)
    (hs : t.stop = s.stop) (hr : t.refused = s.refused) (hc : t.cfg = s.cfg) (hd : t.code = s.code) (hb : t.p.b = s.p.b)
    (hi : i < s.cfg.memSize.bytes) (hm : t.mem = s.mem.set i v) : Quiet s t :=
  ⟨he, hf, hs, hr, hc, hd, hb, [(i, v)], by simpa using hi, hm⟩

theorem stackIndex_lt_memSize (cfg : Config) (sp : Byte) : stackIndex sp < cfg.memSize.bytes :=
  lt_of_lt_of_le (stackIndex_lt sp) (memSize_ge _)

/-- The rules that read an operand and write registers and flags. -/
theorem quiet_of_read {src : Source} {s t : State} {f : Byte → State} (hf : ∀ v, Quiet s (f v))
    (h : (readSource src s >>= fun v => .ok (f v)) = .ok t) : Quiet s t := by
  obtain ⟨v, _, hv⟩ := staged_bind_eq_ok h
  cases hv
  exact hf v

/-- The rules that read, modify and write back memory, and then write registers and flags. -/
theorem quiet_of_modify {m : MemMode} {g : Byte → Byte} {s t : State} {k : Byte × State → Staged State}
    (hk : ∀ v u t, Quiet s u → k (v, u) = .ok t → Quiet s t) (h : (modifyAt m g s >>= k) = .ok t) : Quiet s t := by
  obtain ⟨⟨v, u⟩, hm, hv⟩ := staged_bind_eq_ok h
  obtain ⟨ea, i, _, hi, _, rfl⟩ := modifyAt_eq_ok hm
  refine hk _ _ _ ?_ hv
  exact Quiet.of_mem_set rfl rfl rfl rfl rfl rfl rfl (mapAddr_lt hi) rfl

theorem quiet_of_store {m : MemMode} {v : Byte} {s t : State} (h : storeTo m v s = .ok t) : Quiet s t := by
  obtain ⟨ea, k, _, hk, rfl⟩ := storeTo_eq_ok h
  exact Quiet.of_mem_set rfl rfl rfl rfl rfl rfl rfl (mapAddr_lt hk) rfl

/-- Writing registers, or flags other than P.B, keeps a state quiet. -/
theorem Quiet.update {s u t : State} (h : Quiet s u) (he : t.eng = u.eng) (hf : t.fault = u.fault) (hs : t.stop = u.stop)
    (hr : t.refused = u.refused) (hc : t.cfg = u.cfg) (hd : t.code = u.code) (hb : t.p.b = u.p.b) (hm : t.mem = u.mem) :
    Quiet s t :=
  ⟨he.trans h.eng, hf.trans h.fault, hs.trans h.stop, hr.trans h.refused, hc.trans h.cfg, hd.trans h.code, hb.trans h.flagB,
    h.mem.imp fun _ hw => ⟨hw.1, hm.trans hw.2⟩⟩

theorem Quiet.refl (s : State) : Quiet s s := Quiet.of_mem_eq rfl rfl rfl rfl rfl rfl rfl rfl

theorem decimalCheck_bind_ok {α : Type} {s : State} {f : Unit → Staged α} {a : α} (h : (decimalCheck s >>= f) = .ok a) :
    f () = .ok a := by
  obtain ⟨⟨⟩, _, h⟩ := staged_bind_eq_ok h
  exact h

theorem accumulate_quiet {s u : State} (h : Quiet s u) (m : Byte) : Quiet s (accumulate u m) :=
  h.update rfl rfl rfl rfl rfl rfl rfl rfl

theorem quiet_push (s : State) (v : Byte) :
    Quiet s ((s.withMem (s.mem.set (stackIndex s.sp) v)).withSP (s.sp - 1)) :=
  Quiet.of_mem_set rfl rfl rfl rfl rfl rfl rfl (stackIndex_lt_memSize _ _) rfl

theorem takeTrap_quiet {ret : Addr} {s t : State} (h : takeTrap ret s = .ok t) : Quiet s t := by
  rw [takeTrap_eq] at h
  obtain ⟨lo, _, h⟩ := staged_bind_eq_ok h
  obtain ⟨hi, _, h⟩ := staged_bind_eq_ok h
  cases h
  exact ⟨rfl, rfl, rfl, rfl, rfl, rfl, rfl,
    [(stackIndex s.sp, hi8 ret), (stackIndex (s.sp - 1), lo8 ret), (stackIndex (s.sp - 1 - 1), packP s.p true)],
    by simp [stackIndex_lt_memSize], rfl⟩

/-- Every rule of each shape is quiet where the rule it is given is. -/
theorem onSource_quiet {f : Source → State → Staged State} {o : Operand} {s t : State}
    (hf : ∀ src t, f src s = .ok t → Quiet s t) (h : onSource f o s = .ok t) : Quiet s t := by
  unfold onSource at h
  split at h
  · exact hf _ _ h
  · exact hf _ _ h
  · cases h; exact Quiet.refl s

theorem onMemory_quiet {f : MemMode → State → Staged State} {o : Operand} {s t : State}
    (hf : ∀ m t, f m s = .ok t → Quiet s t) (h : onMemory f o s = .ok t) : Quiet s t := by
  unfold onMemory at h
  split at h
  · exact hf _ _ h
  · cases h; exact Quiet.refl s

theorem shiftTarget_quiet {op : Byte → Bool → ShiftResult} {tgt : Target} {s t : State}
    (h : shiftTarget op tgt s = .ok t) : Quiet s t := by
  cases tgt with
  | acc =>
    cases h
    exact (Quiet.refl s).update rfl rfl rfl rfl rfl rfl rfl rfl
  | mem m =>
    exact quiet_of_modify (fun _ _ _ hu hk => by cases hk; exact hu.update rfl rfl rfl rfl rfl rfl rfl rfl) h

theorem onTarget_quiet {op : Byte → Bool → ShiftResult} {o : Operand} {s t : State}
    (h : onTarget (shiftTarget op) o s = .ok t) : Quiet s t := by
  unfold onTarget at h
  split at h
  · exact shiftTarget_quiet h
  · exact shiftTarget_quiet h
  · cases h; exact Quiet.refl s

theorem branch_quiet {cond : Bool} {off : Byte} {s t : State} (h : branch cond off s = .ok t) : Quiet s t := by
  cases h
  split
  · exact (Quiet.refl s).update rfl rfl rfl rfl rfl rfl rfl rfl
  · exact Quiet.refl s

theorem onRelative_quiet {cond : Bool} {o : Operand} {s t : State} (h : onRelative (branch cond) o s = .ok t) :
    Quiet s t := by
  unfold onRelative at h
  split at h
  · exact branch_quiet h
  · cases h; exact Quiet.refl s

theorem onJump_quiet {o : Operand} {s t : State} (h : onJump o s = .ok t) : Quiet s t := by
  unfold onJump at h
  split at h
  · cases h
    exact (Quiet.refl s).update rfl rfl rfl rfl rfl rfl rfl rfl
  · obtain ⟨w, _, hw⟩ := staged_bind_eq_ok h
    cases hw
    exact (Quiet.refl s).update rfl rfl rfl rfl rfl rfl rfl rfl
  · cases h; exact Quiet.refl s

theorem onCall_quiet {o : Operand} {s t : State} (h : onCall o s = .ok t) : Quiet s t := by
  unfold onCall at h
  split at h
  · simp only [callSub, pushAddr_eq, staged_bind_ok] at h
    cases h
    exact ⟨rfl, rfl, rfl, rfl, rfl, rfl, rfl,
      [(stackIndex s.sp, hi8 (s.pc - 1)), (stackIndex (s.sp - 1), lo8 (s.pc - 1))], by simp [stackIndex_lt_memSize], rfl⟩
  · cases h; exact Quiet.refl s

/-- Every rule is quiet. -/
theorem ruleOf_quiet {m : Mnemonic} {o : Operand} {s₀ s t : State} (h : ruleOf m o s₀ s = .ok t) : Quiet s t := by
  have reg : ∀ {u}, Except.ok (ε := Abort) u = .ok t → Quiet s u → Quiet s t := fun hu hq => by cases hu; exact hq
  have upd : ∀ {u}, u.eng = s.eng → u.fault = s.fault → u.stop = s.stop → u.refused = s.refused → u.cfg = s.cfg →
      u.code = s.code → u.p.b = s.p.b → u.mem = s.mem → Quiet s u := Quiet.of_mem_eq
  cases m
  case lda | ldx | ldy | cmp | cpx | cpy | and | ora | eor =>
    refine onSource_quiet (fun _ _ hr => quiet_of_read ?_ hr) h
    exact fun _ => upd rfl rfl rfl rfl rfl rfl rfl rfl
  case adc | sbc | sbcU =>
    refine onSource_quiet (fun _ _ hr => quiet_of_read ?_ (decimalCheck_bind_ok hr)) h
    exact fun _ => accumulate_quiet (.refl s) _
  case sta => exact onMemory_quiet (f := storeA) (fun _ _ hr => quiet_of_store hr) h
  case stx => exact onMemory_quiet (f := storeX) (fun _ _ hr => quiet_of_store hr) h
  case sty => exact onMemory_quiet (f := storeY) (fun _ _ hr => quiet_of_store hr) h
  case sax => exact onMemory_quiet (f := storeAandX) (fun _ _ hr => quiet_of_store hr) h
  case bit | lax =>
    refine onMemory_quiet (fun m _ hr => quiet_of_read (src := .mem m) ?_ hr) h
    exact fun _ => upd rfl rfl rfl rfl rfl rfl rfl rfl
  case inc | dec | slo | rla | sre | dcp =>
    refine onMemory_quiet (fun _ _ hr => quiet_of_modify ?_ hr) h
    exact fun _ _ _ hu hk => by cases hk; exact hu.update rfl rfl rfl rfl rfl rfl rfl rfl
  case rra | isb =>
    refine onMemory_quiet (fun _ _ hr => quiet_of_modify ?_ (decimalCheck_bind_ok hr)) h
    exact fun _ _ _ hu hk => by cases hk; exact hu.update rfl rfl rfl rfl rfl rfl rfl rfl
  case asl | lsr | rol | ror => exact onTarget_quiet h
  case bpl | bmi | bvc | bvs | bcc | bcs | bne | beq => exact onRelative_quiet h
  case jmp => exact onJump_quiet h
  case jsr => exact onCall_quiet h
  case brk => exact takeTrap_quiet h
  case rts =>
    simp only [ruleOf, returnFromSub, pullAddr_eq, staged_bind_ok] at h
    exact reg h (upd rfl rfl rfl rfl rfl rfl rfl rfl)
  case rti =>
    simp only [ruleOf, returnFromTrap_eq] at h
    exact reg h (upd rfl rfl rfl rfl rfl rfl rfl rfl)
  case pha => exact reg ((push_eq s s.a).symm.trans h) (quiet_push s _)
  case php => exact reg ((push_eq s _).symm.trans h) (quiet_push s _)
  case pla | plp =>
    simp only [ruleOf, pullA, pullP, pull_eq, staged_bind_ok] at h
    exact reg h (upd rfl rfl rfl rfl rfl rfl rfl rfl)
  all_goals exact reg h (upd rfl rfl rfl rfl rfl rfl rfl rfl)

/-- What an execution leaves: a state quiet against the start, or the start with one outcome recorded. -/
theorem exec_cases {i : Instr} {s t : State} (h : exec i s = .next t) :
    Quiet s t ∨ (∃ e, t = s.haltOnError e) ∨ t = s.haltOnRefusal := by
  rw [exec_eq_ruleOf] at h
  rcases execute_cases h with h | ⟨e, _, ht⟩ | ⟨_, ht⟩
  · have q := ruleOf_quiet h
    exact .inl ⟨q.eng, q.fault, q.stop, q.refused, q.cfg, q.code, q.flagB, q.mem⟩
  · exact .inr (.inl ⟨e, ht⟩)
  · exact .inr (.inr ht)

/-- Every execution answers a next state. -/
theorem exec_isNext (i : Instr) (s : State) : ∃ t, exec i s = .next t := by
  rw [exec_eq_ruleOf]
  exact execute_isNext _ _ _

theorem writes_wf {m : Memory} (h : m.wf) (ws : List (Nat × Byte)) : (writes m ws).wf := by
  induction ws generalizing m with
  | nil => exact h
  | cons w ws ih => exact ih (Memory.wf_set h w.1 w.2)

theorem writes_keys {m : Memory} {n : Nat} (h : ∀ c ∈ m, c.1 < n) {ws : List (Nat × Byte)} (hw : ∀ w ∈ ws, w.1 < n) :
    ∀ c ∈ writes m ws, c.1 < n := by
  induction ws generalizing m with
  | nil => exact h
  | cons w ws ih =>
    exact ih (Memory.keys_set h (hw w List.mem_cons_self)) fun v hv => hw v (List.mem_cons_of_mem _ hv)

end Sys2Proof.Machine
end

