-- ==== Sys2Proof/Laws/Run.lean ====
section
/-! SUPPORT. How an execution is computed from its triple, by the shape of the operand, and which operands a mnemonic has. The
statements about a mnemonic's results go through `exec_source`, `exec_memory`, `exec_target` and `exec_implied`. -/

namespace Sys2Proof.Machine

@[simp] theorem onSource_operand (f : Source → State → Staged State) (src : Source) : onSource f src.operand = f src := by
  cases src <;> rfl

/-- A form with a source operand completes with what its rule gives on the staged state. -/
theorem exec_source {i : Instr} {m : Mnemonic} {src : Source} {s t : State} {f : Source → State → Staged State}
    (h : i.triple = (m, src.operand)) (hr : ∀ s₀ o, ruleOf m o s₀ = onSource f o)
    (ht : f src (s.withPC (nextPC s i)) = .ok t) : exec i s = .next t := by
  rw [exec_of_triple h]
  apply execute_of_ok
  rwa [← nextPC_of_triple h, hr, onSource_operand]

/-- A form with a memory operand completes with what its rule gives on the staged state. -/
theorem exec_memory {i : Instr} {m : Mnemonic} {mode : MemMode} {s t : State} {f : MemMode → State → Staged State}
    (h : i.triple = (m, .memory mode)) (hr : ∀ s₀ o, ruleOf m o s₀ = onMemory f o)
    (ht : f mode (s.withPC (nextPC s i)) = .ok t) : exec i s = .next t := by
  rw [exec_of_triple h]
  apply execute_of_ok
  rwa [← nextPC_of_triple h, hr]

/-- A shift of memory completes with what its rule gives on the staged state. -/
theorem exec_target {i : Instr} {m : Mnemonic} {mode : MemMode} {s t : State} {f : Target → State → Staged State}
    (h : i.triple = (m, .memory mode)) (hr : ∀ s₀ o, ruleOf m o s₀ = onTarget f o)
    (ht : f (.mem mode) (s.withPC (nextPC s i)) = .ok t) : exec i s = .next t := by
  rw [exec_of_triple h]
  apply execute_of_ok
  rwa [← nextPC_of_triple h, hr]

/-- A form of one byte completes with what its rule gives on the state with PC + 1. -/
theorem exec_implied {i : Instr} {m : Mnemonic} {s t : State} (h : i.triple = (m, .implied))
    (ht : ruleOf m .implied s (s.withPC (s.pc + 1)) = .ok t) : exec i s = .next t := by
  rw [exec_of_triple h]
  exact execute_of_ok ht

/-- The read-modify-write of a form whose operand is mapped, on the staged state. -/
theorem modifyAt_withPC {mode : MemMode} {s : State} {ea : Addr} {k : Nat} (hea : effAddr mode s = .ok ea)
    (hk : mapAddr s.cfg ea = .ok k) (v : Addr) (f : Byte → Byte) :
    modifyAt mode f (s.withPC v) = .ok (s.mem.get k, (s.withPC v).withMem (s.mem.set k (f (s.mem.get k)))) :=
  modifyAt_of_map (s := s.withPC v) (by simpa using hea) hk f

/-- The store of a form whose operand is mapped, on the staged state. -/
theorem storeTo_withPC {mode : MemMode} {s : State} {ea : Addr} {k : Nat} (hea : effAddr mode s = .ok ea)
    (hk : mapAddr s.cfg ea = .ok k) (v : Addr) (b : Byte) :
    storeTo mode b (s.withPC v) = .ok ((s.withPC v).withMem (s.mem.set k b)) :=
  storeTo_of_map (s := s.withPC v) (by simpa using hea) hk b

theorem decimalCheck_of_not {s : State} (h : ¬ s.decimalRefused) (v : Addr) : decimalCheck (s.withPC v) = .ok () :=
  if_neg h

theorem decimalCheck_of_refused {s : State} (h : s.decimalRefused) (v : Addr) :
    decimalCheck (s.withPC v) = .error .refuse :=
  if_pos h

/-- What a rule that reads its operand and then writes registers and flags leaves. -/
theorem read_bind_eq_ok {src : Source} {s t : State} {f : Byte → State}
    (h : (readSource src s >>= fun v => (pure (f v) : Staged State)) = .ok t) : ∃ v, t = f v := by
  obtain ⟨v, _, hv⟩ := staged_bind_eq_ok h
  cases hv
  exact ⟨v, rfl⟩

/-- What a rule that modifies memory and then writes registers and flags leaves. -/
theorem modify_bind_eq_ok {m : MemMode} {g : Byte → Byte} {s t : State} {f : Byte × State → State}
    (h : (modifyAt m g s >>= fun p => (pure (f p) : Staged State)) = .ok t) :
    ∃ ea j, effAddr m s = .ok ea ∧ mapAddr s.cfg ea = .ok j ∧
      t = f (s.mem.get j, s.withMem (s.mem.set j (g (s.mem.get j)))) := by
  obtain ⟨⟨v, u⟩, hm, hv⟩ := staged_bind_eq_ok h
  obtain ⟨ea, j, hea, hj, rfl, rfl⟩ := modifyAt_eq_ok hm
  cases hv
  exact ⟨ea, j, hea, hj, rfl⟩

/-- A byte at an index that no write names is kept. -/
theorem writes_get_of_ne {i : Nat} : ∀ (ws : List (Nat × Byte)) (m : Memory), (∀ w ∈ ws, w.1 ≠ i) →
    (writes m ws).get i = m.get i
  | [], _, _ => rfl
  | w :: ws, m, h => by
    rw [writes, writes_get_of_ne ws _ fun v hv => h v (List.mem_cons_of_mem _ hv),
      Memory.get_set_of_ne _ _ (h w List.mem_cons_self)]

/-- Which operands a mnemonic has. -/
def operandFits : Mnemonic → Operand → Bool
  | .lda, .immediate _ | .ldx, .immediate _ | .ldy, .immediate _ | .cmp, .immediate _ | .cpx, .immediate _
  | .cpy, .immediate _ | .and, .immediate _ | .ora, .immediate _ | .eor, .immediate _ | .adc, .immediate _
  | .sbc, .immediate _ | .sbcU, .immediate _ | .nopU, .immediate _ => true
  | .lda, .memory _ | .ldx, .memory _ | .ldy, .memory _ | .cmp, .memory _ | .cpx, .memory _ | .cpy, .memory _
  | .and, .memory _ | .ora, .memory _ | .eor, .memory _ | .adc, .memory _ | .sbc, .memory _ | .sta, .memory _
  | .stx, .memory _ | .sty, .memory _ | .inc, .memory _ | .dec, .memory _ | .bit, .memory _ | .slo, .memory _
  | .rla, .memory _ | .sre, .memory _ | .rra, .memory _ | .dcp, .memory _ | .isb, .memory _ | .lax, .memory _
  | .sax, .memory _ | .asl, .memory _ | .lsr, .memory _ | .rol, .memory _ | .ror, .memory _ | .nopU, .memory _ => true
  | .asl, .accumulator | .lsr, .accumulator | .rol, .accumulator | .ror, .accumulator => true
  | .bpl, .relative _ | .bmi, .relative _ | .bvc, .relative _ | .bvs, .relative _ | .bcc, .relative _ | .bcs, .relative _
  | .bne, .relative _ | .beq, .relative _ => true
  | .jmp, .memory (.abs _) | .jmp, .indirect _ | .jsr, .memory (.abs _) => true
  | .inx, .implied | .iny, .implied | .dex, .implied | .dey, .implied | .rts, .implied | .brk, .implied | .rti, .implied
  | .pha, .implied | .php, .implied | .pla, .implied | .plp, .implied | .tax, .implied | .tay, .implied | .txa, .implied
  | .tya, .implied | .tsx, .implied | .txs, .implied | .clc, .implied | .sec, .implied | .cli, .implied | .sei, .implied
  | .cld, .implied | .sed, .implied | .clv, .implied | .nop, .implied | .nopU, .implied => true
  | _, _ => false

theorem operandFits_instr (i : Instr) : operandFits i.mnemonic i.operand = true := by cases i <;> rfl

end Sys2Proof.Machine
end

