-- ==== Sys2Proof/Laws/Step.lean ====
section
/-! SUPPORT. Where an execution's and a step's errors come from, and everything a step can do, said once. -/

namespace Sys2Proof.Machine

/-- An abort that Map raised: OutOfBoundsAddress of an address at or beyond MEM_SIZE, under OOB_POLICY = error. -/
def FromMap (cfg : Config) (e : Abort) : Prop :=
  ∃ a : Addr, e = .raise (.outOfBoundsAddress a) ∧ cfg.oobPolicy = .error ∧ cfg.memSize.bytes ≤ a.toNat

theorem staged_bind_eq_error {α β : Type} {x : Staged α} {f : α → Staged β} {e : Abort} (h : (x >>= f) = .error e) :
    x = .error e ∨ ∃ a, x = .ok a ∧ f a = .error e := by
  cases x with
  | error e' => cases h; exact .inl rfl
  | ok a => exact .inr ⟨a, rfl, h⟩

theorem mapAddr_fromMap {cfg : Config} {a : Addr} {e : Abort} (h : mapAddr cfg a = .error e) : FromMap cfg e :=
  ⟨a, mapAddr_error h⟩

theorem memRead_fromMap {s : State} {a : Addr} {e : Abort} (h : memRead s a = .error e) : FromMap s.cfg e :=
  mapAddr_fromMap (memRead_error.mp h)

theorem readSource_fromMap {src : Source} {s : State} {e : Abort} (h : readSource src s = .error e) : FromMap s.cfg e := by
  cases src with
  | imm v => cases h
  | mem m =>
    obtain ⟨ea, hea⟩ := effAddr_isOk m s
    simp only [readSource, hea, staged_bind_ok] at h
    exact memRead_fromMap h

theorem storeTo_fromMap {m : MemMode} {v : Byte} {s : State} {e : Abort} (h : storeTo m v s = .error e) :
    FromMap s.cfg e := by
  obtain ⟨ea, hea⟩ := effAddr_isOk m s
  simp only [storeTo, hea, staged_bind_ok] at h
  exact mapAddr_fromMap (memWrite_error.mp h)

theorem modifyAt_fromMap {m : MemMode} {f : Byte → Byte} {s : State} {e : Abort} (h : modifyAt m f s = .error e) :
    FromMap s.cfg e := by
  obtain ⟨ea, hea⟩ := effAddr_isOk m s
  cases hk : mapAddr s.cfg ea with
  | ok k => rw [modifyAt_of_map hea hk] at h; cases h
  | error e' =>
    rw [(operand_error hea hk).2.2] at h
    cases h
    exact mapAddr_fromMap hk

theorem read_bind_fromMap {src : Source} {s : State} {f : Byte → State} {e : Abort}
    (h : (readSource src s >>= fun v => (pure (f v) : Staged State)) = .error e) : FromMap s.cfg e := by
  rcases staged_bind_eq_error h with h | ⟨_, _, h⟩
  · exact readSource_fromMap h
  · cases h

theorem modify_bind_fromMap {m : MemMode} {g : Byte → Byte} {s : State} {f : Byte × State → State} {e : Abort}
    (h : (modifyAt m g s >>= fun p => (pure (f p) : Staged State)) = .error e) : FromMap s.cfg e := by
  rcases staged_bind_eq_error h with h | ⟨_, _, h⟩
  · exact modifyAt_fromMap h
  · cases h

theorem decimalCheck_bind_error {α : Type} {s : State} {f : Unit → Staged α} {e : Abort}
    (h : (decimalCheck s >>= f) = .error e) : (e = .refuse ∧ s.decimalRefused) ∨ f () = .error e := by
  by_cases hd : s.decimalRefused
  · rw [show decimalCheck s = .error .refuse from if_pos hd] at h
    cases h
    exact .inl ⟨rfl, hd⟩
  · rw [show decimalCheck s = .ok () from if_neg hd] at h
    exact .inr h

/-- Every error of a rule is the decimal refusal of an arithmetic instruction, or comes from Map. -/
theorem ruleOf_error {m : Mnemonic} {o : Operand} {s₀ s : State} {e : Abort} (h : ruleOf m o s₀ s = .error e) :
    (e = .refuse ∧ s.decimalRefused ∧ m ∈ ([.adc, .sbc, .sbcU, .rra, .isb] : List Mnemonic)) ∨ FromMap s.cfg e := by
  cases m
  case adc | sbc | sbcU =>
    simp only [ruleOf] at h
    cases o <;> simp only [onSource, addToA, subFromA] at h <;> first
      | exact (decimalCheck_bind_error h).imp (fun hr => ⟨hr.1, hr.2, by decide⟩) read_bind_fromMap
      | cases h
  case rra | isb =>
    simp only [ruleOf] at h
    cases o <;> simp only [onMemory, rotateRightAdd, incSub] at h <;> first
      | exact (decimalCheck_bind_error h).imp (fun hr => ⟨hr.1, hr.2, by decide⟩) modify_bind_fromMap
      | cases h
  all_goals right
  case lda | ldx | ldy | cmp | cpx | cpy | and | ora | eor | bit | lax =>
    simp only [ruleOf] at h
    cases o <;> simp only [onSource, onMemory, loadA, loadX, loadY, compareA, compareX, compareY, andA, orA, eorA, bitTest,
      loadAX] at h <;> first
      | exact read_bind_fromMap h
      | cases h
  case sta | stx | sty | sax =>
    simp only [ruleOf] at h
    cases o <;> simp only [onMemory, storeA, storeX, storeY, storeAandX] at h <;> first
      | exact storeTo_fromMap h
      | cases h
  case inc | dec | slo | rla | sre | dcp =>
    simp only [ruleOf] at h
    cases o <;> simp only [onMemory, incMem, decMem, shiftLeftOr, rotateLeftAnd, shiftRightEor, decCompare] at h <;> first
      | exact modify_bind_fromMap h
      | cases h
  case asl | lsr | rol | ror =>
    simp only [ruleOf] at h
    cases o <;> simp only [onTarget, shiftTarget] at h <;> first
      | exact modify_bind_fromMap h
      | cases h
  case bpl | bmi | bvc | bvs | bcc | bcs | bne | beq =>
    simp only [ruleOf] at h
    cases o <;> cases h
  case jmp =>
    simp only [ruleOf] at h
    unfold onJump at h
    split at h
    · cases h
    · rcases staged_bind_eq_error h with h | ⟨_, _, h⟩
      · rcases staged_bind_eq_error h with h | ⟨_, _, h⟩
        · exact memRead_fromMap h
        · rcases staged_bind_eq_error h with h | ⟨_, _, h⟩
          · exact memRead_fromMap h
          · cases h
      · cases h
    · cases h
  case jsr =>
    simp only [ruleOf] at h
    unfold onCall at h
    split at h
    · simp only [callSub, pushAddr_eq, staged_bind_ok] at h
      cases h
    · cases h
  case brk =>
    simp only [ruleOf, takeTrap_eq] at h
    rcases staged_bind_eq_error h with h | ⟨_, _, h⟩
    · exact memRead_fromMap (s := trapPushed (s₀.pc + 2) s) h
    · rcases staged_bind_eq_error h with h | ⟨_, _, h⟩
      · exact memRead_fromMap (s := trapPushed (s₀.pc + 2) s) h
      · cases h
  case rts =>
    simp only [ruleOf, returnFromSub, pullAddr_eq, staged_bind_ok] at h
    cases h
  case rti =>
    simp only [ruleOf, returnFromTrap_eq] at h
    cases h
  case pha | php =>
    simp only [ruleOf, pushA, pushP, push_eq] at h
    cases h
  case pla | plp =>
    simp only [ruleOf, pullA, pullP, pull_eq, staged_bind_ok] at h
    cases h
  all_goals cases h

/-- Everything an execution can do: complete quietly, record an error that Map raised, or refuse decimal arithmetic. -/
theorem exec_outcome {i : Instr} {s t : State} (h : exec i s = .next t) :
    Quiet s t ∨ (∃ e, FromMap s.cfg (.raise e) ∧ t = s.haltOnError e) ∨ (s.decimalRefused ∧ t = s.haltOnRefusal) := by
  rw [exec_eq_ruleOf] at h
  rcases execute_cases h with h | ⟨e, he, ht⟩ | ⟨he, ht⟩
  · have q := ruleOf_quiet h
    exact .inl ⟨q.eng, q.fault, q.stop, q.refused, q.cfg, q.code, q.flagB, q.mem⟩
  · rcases ruleOf_error he with ⟨hr, _⟩ | hm
    · cases hr
    · exact .inr (.inl ⟨e, hm, ht⟩)
  · rcases ruleOf_error he with ⟨_, hd, _⟩ | ⟨a, ha, _⟩
    · exact .inr (.inr ⟨hd, ht⟩)
    · cases ha

/-- The three ways the decode phase fails, with what each needs. -/
theorem fetchInstr_failed {s : State} {e : ErrorRecord} (h : fetchInstr s = .failed e) :
    (∃ opc, fetchByte s s.pc = .ok opc ∧ classify s.cfg opc = .unknown ∧ e = .unknownOpcode opc s.pc) ∨
    (s.cfg.fetchSource = .stream ∧ e = .truncatedOperand s.pc) ∨ FromMap s.cfg (.raise e) := by
  have fail : ∀ {a : Addr} {x : Abort}, fetchByte s a = .error x → fetchFailure s x = .failed e →
      (s.cfg.fetchSource = .stream ∧ e = .truncatedOperand s.pc) ∨ FromMap s.cfg (.raise e) := by
    intro a x hx hf
    unfold fetchByte at hx
    split at hx
    · obtain ⟨b, rfl, hp, hb⟩ := memRead_fromMap hx
      cases hf
      exact .inr ⟨b, rfl, hp, hb⟩
    · split at hx
      · cases hx
      · cases hx
        cases hf
        exact .inl ⟨‹_›, rfl⟩
  unfold fetchInstr at h
  split at h
  · cases h
  · split at h
    · exact .inr (fail ‹_› h)
    · rename_i opc hopc
      split at h
      · cases h
      · cases h
        exact .inl ⟨opc, hopc, ‹_›, rfl⟩
      · rename_i cell _
        split at h
        · rename_i hb
          cases h
          simp only [beyondCode, Bool.and_eq_true, beq_iff_eq] at hb
          exact .inr (.inl ⟨hb.1, rfl⟩)
        · unfold fetchOperands at h
          split at h
          · cases h
          · split at h
            · exact .inr (fail ‹_› h)
            · cases h
          · split at h
            · exact .inr (fail ‹_› h)
            · split at h
              · exact .inr (fail ‹_› h)
              · cases h

theorem haltedOutcome_ne_next (s t : State) : haltedOutcome s ≠ .next t := by
  unfold haltedOutcome
  cases s.fault with
  | some e => exact fun h => by cases h
  | none =>
    cases s.refused <;> cases s.stop <;> exact fun h => by cases h

/-- Everything a step that answers a next state can do. It starts Ready; then the decode phase stops or fails, or an
instruction executes. -/
theorem step_inversion {s t : State} (h : step s = .next t) : s.eng = .ready ∧
    ((∃ r, fetchInstr s = .stopped r ∧ t = s.haltOnStop r) ∨ (∃ e, fetchInstr s = .failed e ∧ t = s.haltOnError e) ∨
     (∃ i, fetchInstr s = .instr i ∧ exec i s = .next t)) := by
  unfold step at h
  split at h
  · exact absurd h (haltedOutcome_ne_next s t)
  · refine ⟨‹_›, ?_⟩
    split at h
    · cases h; exact .inl ⟨_, ‹_›, rfl⟩
    · cases h; exact .inr (.inl ⟨_, ‹_›, rfl⟩)
    · exact .inr (.inr ⟨_, ‹_›, h⟩)

end Sys2Proof.Machine
end

