-- ==== Sys2Proof/Tests/Slice0.lean ====
section
/-! SUPPORT. Tests. Expected values come from spec/: the opcode grid of R130 to R132 for decoding, and the vectors T<n> of
95_test_vectors.md for single steps, with their start states. The witnesses show that the hypotheses of the statements can be
met. -/

namespace Sys2Proof.Tests

open Sys2Proof.Machine

/-! ## Decoding, from the opcode grid of R130 (operands 0x42 and 0x1234) -/

theorem test_decode_row_0 :
    decodeTableWord 8 0x00 = some .brk ∧ decodeTableWord 16 0x4201 = some (.oraIndX 0x42) ∧
    decodeTableWord 24 0x123402 = none ∧ decodeTableWord 16 0x4203 = some (.sloIndX 0x42) ∧
    decodeTableWord 16 0x4204 = some (.nopZp04 0x42) ∧ decodeTableWord 16 0x4205 = some (.oraZp 0x42) ∧
    decodeTableWord 16 0x4206 = some (.aslZp 0x42) ∧ decodeTableWord 16 0x4207 = some (.sloZp 0x42) ∧
    decodeTableWord 8 0x08 = some .php ∧ decodeTableWord 16 0x4209 = some (.oraImm 0x42) ∧
    decodeTableWord 8 0x0A = some .aslAcc ∧ decodeTableWord 24 0x12340B = none ∧
    decodeTableWord 24 0x12340C = some (.nopAbs0C 0x1234) ∧ decodeTableWord 24 0x12340D = some (.oraAbs 0x1234) ∧
    decodeTableWord 24 0x12340E = some (.aslAbs 0x1234) ∧ decodeTableWord 24 0x12340F = some (.sloAbs 0x1234) := by
  decide

theorem test_decode_row_1 :
    decodeTableWord 16 0x4210 = some (.bpl 0x42) ∧ decodeTableWord 16 0x4211 = some (.oraIndY 0x42) ∧
    decodeTableWord 24 0x123412 = none ∧ decodeTableWord 16 0x4213 = some (.sloIndY 0x42) ∧
    decodeTableWord 16 0x4214 = some (.nopZpX14 0x42) ∧ decodeTableWord 16 0x4215 = some (.oraZpX 0x42) ∧
    decodeTableWord 16 0x4216 = some (.aslZpX 0x42) ∧ decodeTableWord 16 0x4217 = some (.sloZpX 0x42) ∧
    decodeTableWord 8 0x18 = some .clc ∧ decodeTableWord 24 0x123419 = some (.oraAbsY 0x1234) ∧
    decodeTableWord 8 0x1A = some .nopImp1A ∧ decodeTableWord 24 0x12341B = some (.sloAbsY 0x1234) ∧
    decodeTableWord 24 0x12341C = some (.nopAbsX1C 0x1234) ∧ decodeTableWord 24 0x12341D = some (.oraAbsX 0x1234) ∧
    decodeTableWord 24 0x12341E = some (.aslAbsX 0x1234) ∧ decodeTableWord 24 0x12341F = some (.sloAbsX 0x1234) := by
  decide

theorem test_decode_row_2 :
    decodeTableWord 24 0x123420 = some (.jsrAbs 0x1234) ∧ decodeTableWord 16 0x4221 = some (.andIndX 0x42) ∧
    decodeTableWord 24 0x123422 = none ∧ decodeTableWord 16 0x4223 = some (.rlaIndX 0x42) ∧
    decodeTableWord 16 0x4224 = some (.bitZp 0x42) ∧ decodeTableWord 16 0x4225 = some (.andZp 0x42) ∧
    decodeTableWord 16 0x4226 = some (.rolZp 0x42) ∧ decodeTableWord 16 0x4227 = some (.rlaZp 0x42) ∧
    decodeTableWord 8 0x28 = some .plp ∧ decodeTableWord 16 0x4229 = some (.andImm 0x42) ∧
    decodeTableWord 8 0x2A = some .rolAcc ∧ decodeTableWord 24 0x12342B = none ∧
    decodeTableWord 24 0x12342C = some (.bitAbs 0x1234) ∧ decodeTableWord 24 0x12342D = some (.andAbs 0x1234) ∧
    decodeTableWord 24 0x12342E = some (.rolAbs 0x1234) ∧ decodeTableWord 24 0x12342F = some (.rlaAbs 0x1234) := by
  decide

theorem test_decode_row_3 :
    decodeTableWord 16 0x4230 = some (.bmi 0x42) ∧ decodeTableWord 16 0x4231 = some (.andIndY 0x42) ∧
    decodeTableWord 24 0x123432 = none ∧ decodeTableWord 16 0x4233 = some (.rlaIndY 0x42) ∧
    decodeTableWord 16 0x4234 = some (.nopZpX34 0x42) ∧ decodeTableWord 16 0x4235 = some (.andZpX 0x42) ∧
    decodeTableWord 16 0x4236 = some (.rolZpX 0x42) ∧ decodeTableWord 16 0x4237 = some (.rlaZpX 0x42) ∧
    decodeTableWord 8 0x38 = some .sec ∧ decodeTableWord 24 0x123439 = some (.andAbsY 0x1234) ∧
    decodeTableWord 8 0x3A = some .nopImp3A ∧ decodeTableWord 24 0x12343B = some (.rlaAbsY 0x1234) ∧
    decodeTableWord 24 0x12343C = some (.nopAbsX3C 0x1234) ∧ decodeTableWord 24 0x12343D = some (.andAbsX 0x1234) ∧
    decodeTableWord 24 0x12343E = some (.rolAbsX 0x1234) ∧ decodeTableWord 24 0x12343F = some (.rlaAbsX 0x1234) := by
  decide

theorem test_decode_row_4 :
    decodeTableWord 8 0x40 = some .rti ∧ decodeTableWord 16 0x4241 = some (.eorIndX 0x42) ∧
    decodeTableWord 24 0x123442 = none ∧ decodeTableWord 16 0x4243 = some (.sreIndX 0x42) ∧
    decodeTableWord 16 0x4244 = some (.nopZp44 0x42) ∧ decodeTableWord 16 0x4245 = some (.eorZp 0x42) ∧
    decodeTableWord 16 0x4246 = some (.lsrZp 0x42) ∧ decodeTableWord 16 0x4247 = some (.sreZp 0x42) ∧
    decodeTableWord 8 0x48 = some .pha ∧ decodeTableWord 16 0x4249 = some (.eorImm 0x42) ∧
    decodeTableWord 8 0x4A = some .lsrAcc ∧ decodeTableWord 24 0x12344B = none ∧
    decodeTableWord 24 0x12344C = some (.jmpAbs 0x1234) ∧ decodeTableWord 24 0x12344D = some (.eorAbs 0x1234) ∧
    decodeTableWord 24 0x12344E = some (.lsrAbs 0x1234) ∧ decodeTableWord 24 0x12344F = some (.sreAbs 0x1234) := by
  decide

theorem test_decode_row_5 :
    decodeTableWord 16 0x4250 = some (.bvc 0x42) ∧ decodeTableWord 16 0x4251 = some (.eorIndY 0x42) ∧
    decodeTableWord 24 0x123452 = none ∧ decodeTableWord 16 0x4253 = some (.sreIndY 0x42) ∧
    decodeTableWord 16 0x4254 = some (.nopZpX54 0x42) ∧ decodeTableWord 16 0x4255 = some (.eorZpX 0x42) ∧
    decodeTableWord 16 0x4256 = some (.lsrZpX 0x42) ∧ decodeTableWord 16 0x4257 = some (.sreZpX 0x42) ∧
    decodeTableWord 8 0x58 = some .cli ∧ decodeTableWord 24 0x123459 = some (.eorAbsY 0x1234) ∧
    decodeTableWord 8 0x5A = some .nopImp5A ∧ decodeTableWord 24 0x12345B = some (.sreAbsY 0x1234) ∧
    decodeTableWord 24 0x12345C = some (.nopAbsX5C 0x1234) ∧ decodeTableWord 24 0x12345D = some (.eorAbsX 0x1234) ∧
    decodeTableWord 24 0x12345E = some (.lsrAbsX 0x1234) ∧ decodeTableWord 24 0x12345F = some (.sreAbsX 0x1234) := by
  decide

theorem test_decode_row_6 :
    decodeTableWord 8 0x60 = some .rts ∧ decodeTableWord 16 0x4261 = some (.adcIndX 0x42) ∧
    decodeTableWord 24 0x123462 = none ∧ decodeTableWord 16 0x4263 = some (.rraIndX 0x42) ∧
    decodeTableWord 16 0x4264 = some (.nopZp64 0x42) ∧ decodeTableWord 16 0x4265 = some (.adcZp 0x42) ∧
    decodeTableWord 16 0x4266 = some (.rorZp 0x42) ∧ decodeTableWord 16 0x4267 = some (.rraZp 0x42) ∧
    decodeTableWord 8 0x68 = some .pla ∧ decodeTableWord 16 0x4269 = some (.adcImm 0x42) ∧
    decodeTableWord 8 0x6A = some .rorAcc ∧ decodeTableWord 24 0x12346B = none ∧
    decodeTableWord 24 0x12346C = some (.jmpInd 0x1234) ∧ decodeTableWord 24 0x12346D = some (.adcAbs 0x1234) ∧
    decodeTableWord 24 0x12346E = some (.rorAbs 0x1234) ∧ decodeTableWord 24 0x12346F = some (.rraAbs 0x1234) := by
  decide

theorem test_decode_row_7 :
    decodeTableWord 16 0x4270 = some (.bvs 0x42) ∧ decodeTableWord 16 0x4271 = some (.adcIndY 0x42) ∧
    decodeTableWord 24 0x123472 = none ∧ decodeTableWord 16 0x4273 = some (.rraIndY 0x42) ∧
    decodeTableWord 16 0x4274 = some (.nopZpX74 0x42) ∧ decodeTableWord 16 0x4275 = some (.adcZpX 0x42) ∧
    decodeTableWord 16 0x4276 = some (.rorZpX 0x42) ∧ decodeTableWord 16 0x4277 = some (.rraZpX 0x42) ∧
    decodeTableWord 8 0x78 = some .sei ∧ decodeTableWord 24 0x123479 = some (.adcAbsY 0x1234) ∧
    decodeTableWord 8 0x7A = some .nopImp7A ∧ decodeTableWord 24 0x12347B = some (.rraAbsY 0x1234) ∧
    decodeTableWord 24 0x12347C = some (.nopAbsX7C 0x1234) ∧ decodeTableWord 24 0x12347D = some (.adcAbsX 0x1234) ∧
    decodeTableWord 24 0x12347E = some (.rorAbsX 0x1234) ∧ decodeTableWord 24 0x12347F = some (.rraAbsX 0x1234) := by
  decide

theorem test_decode_row_8 :
    decodeTableWord 16 0x4280 = some (.nopImm80 0x42) ∧ decodeTableWord 16 0x4281 = some (.staIndX 0x42) ∧
    decodeTableWord 16 0x4282 = some (.nopImm82 0x42) ∧ decodeTableWord 16 0x4283 = some (.saxIndX 0x42) ∧
    decodeTableWord 16 0x4284 = some (.styZp 0x42) ∧ decodeTableWord 16 0x4285 = some (.staZp 0x42) ∧
    decodeTableWord 16 0x4286 = some (.stxZp 0x42) ∧ decodeTableWord 16 0x4287 = some (.saxZp 0x42) ∧
    decodeTableWord 8 0x88 = some .dey ∧ decodeTableWord 16 0x4289 = some (.nopImm89 0x42) ∧
    decodeTableWord 8 0x8A = some .txa ∧ decodeTableWord 24 0x12348B = none ∧
    decodeTableWord 24 0x12348C = some (.styAbs 0x1234) ∧ decodeTableWord 24 0x12348D = some (.staAbs 0x1234) ∧
    decodeTableWord 24 0x12348E = some (.stxAbs 0x1234) ∧ decodeTableWord 24 0x12348F = some (.saxAbs 0x1234) := by
  decide

theorem test_decode_row_9 :
    decodeTableWord 16 0x4290 = some (.bcc 0x42) ∧ decodeTableWord 16 0x4291 = some (.staIndY 0x42) ∧
    decodeTableWord 24 0x123492 = none ∧ decodeTableWord 24 0x123493 = none ∧
    decodeTableWord 16 0x4294 = some (.styZpX 0x42) ∧ decodeTableWord 16 0x4295 = some (.staZpX 0x42) ∧
    decodeTableWord 16 0x4296 = some (.stxZpY 0x42) ∧ decodeTableWord 16 0x4297 = some (.saxZpY 0x42) ∧
    decodeTableWord 8 0x98 = some .tya ∧ decodeTableWord 24 0x123499 = some (.staAbsY 0x1234) ∧
    decodeTableWord 8 0x9A = some .txs ∧ decodeTableWord 24 0x12349B = none ∧ decodeTableWord 24 0x12349C = none ∧
    decodeTableWord 24 0x12349D = some (.staAbsX 0x1234) ∧ decodeTableWord 24 0x12349E = none ∧
    decodeTableWord 24 0x12349F = none := by
  decide

theorem test_decode_row_A :
    decodeTableWord 16 0x42A0 = some (.ldyImm 0x42) ∧ decodeTableWord 16 0x42A1 = some (.ldaIndX 0x42) ∧
    decodeTableWord 16 0x42A2 = some (.ldxImm 0x42) ∧ decodeTableWord 16 0x42A3 = some (.laxIndX 0x42) ∧
    decodeTableWord 16 0x42A4 = some (.ldyZp 0x42) ∧ decodeTableWord 16 0x42A5 = some (.ldaZp 0x42) ∧
    decodeTableWord 16 0x42A6 = some (.ldxZp 0x42) ∧ decodeTableWord 16 0x42A7 = some (.laxZp 0x42) ∧
    decodeTableWord 8 0xA8 = some .tay ∧ decodeTableWord 16 0x42A9 = some (.ldaImm 0x42) ∧
    decodeTableWord 8 0xAA = some .tax ∧ decodeTableWord 24 0x1234AB = none ∧
    decodeTableWord 24 0x1234AC = some (.ldyAbs 0x1234) ∧ decodeTableWord 24 0x1234AD = some (.ldaAbs 0x1234) ∧
    decodeTableWord 24 0x1234AE = some (.ldxAbs 0x1234) ∧ decodeTableWord 24 0x1234AF = some (.laxAbs 0x1234) := by
  decide

theorem test_decode_row_B :
    decodeTableWord 16 0x42B0 = some (.bcs 0x42) ∧ decodeTableWord 16 0x42B1 = some (.ldaIndY 0x42) ∧
    decodeTableWord 24 0x1234B2 = none ∧ decodeTableWord 16 0x42B3 = some (.laxIndY 0x42) ∧
    decodeTableWord 16 0x42B4 = some (.ldyZpX 0x42) ∧ decodeTableWord 16 0x42B5 = some (.ldaZpX 0x42) ∧
    decodeTableWord 16 0x42B6 = some (.ldxZpY 0x42) ∧ decodeTableWord 16 0x42B7 = some (.laxZpY 0x42) ∧
    decodeTableWord 8 0xB8 = some .clv ∧ decodeTableWord 24 0x1234B9 = some (.ldaAbsY 0x1234) ∧
    decodeTableWord 8 0xBA = some .tsx ∧ decodeTableWord 24 0x1234BB = none ∧
    decodeTableWord 24 0x1234BC = some (.ldyAbsX 0x1234) ∧ decodeTableWord 24 0x1234BD = some (.ldaAbsX 0x1234) ∧
    decodeTableWord 24 0x1234BE = some (.ldxAbsY 0x1234) ∧ decodeTableWord 24 0x1234BF = some (.laxAbsY 0x1234) := by
  decide

theorem test_decode_row_C :
    decodeTableWord 16 0x42C0 = some (.cpyImm 0x42) ∧ decodeTableWord 16 0x42C1 = some (.cmpIndX 0x42) ∧
    decodeTableWord 16 0x42C2 = some (.nopImmC2 0x42) ∧ decodeTableWord 16 0x42C3 = some (.dcpIndX 0x42) ∧
    decodeTableWord 16 0x42C4 = some (.cpyZp 0x42) ∧ decodeTableWord 16 0x42C5 = some (.cmpZp 0x42) ∧
    decodeTableWord 16 0x42C6 = some (.decZp 0x42) ∧ decodeTableWord 16 0x42C7 = some (.dcpZp 0x42) ∧
    decodeTableWord 8 0xC8 = some .iny ∧ decodeTableWord 16 0x42C9 = some (.cmpImm 0x42) ∧
    decodeTableWord 8 0xCA = some .dex ∧ decodeTableWord 24 0x1234CB = none ∧
    decodeTableWord 24 0x1234CC = some (.cpyAbs 0x1234) ∧ decodeTableWord 24 0x1234CD = some (.cmpAbs 0x1234) ∧
    decodeTableWord 24 0x1234CE = some (.decAbs 0x1234) ∧ decodeTableWord 24 0x1234CF = some (.dcpAbs 0x1234) := by
  decide

theorem test_decode_row_D :
    decodeTableWord 16 0x42D0 = some (.bne 0x42) ∧ decodeTableWord 16 0x42D1 = some (.cmpIndY 0x42) ∧
    decodeTableWord 24 0x1234D2 = none ∧ decodeTableWord 16 0x42D3 = some (.dcpIndY 0x42) ∧
    decodeTableWord 16 0x42D4 = some (.nopZpXD4 0x42) ∧ decodeTableWord 16 0x42D5 = some (.cmpZpX 0x42) ∧
    decodeTableWord 16 0x42D6 = some (.decZpX 0x42) ∧ decodeTableWord 16 0x42D7 = some (.dcpZpX 0x42) ∧
    decodeTableWord 8 0xD8 = some .cld ∧ decodeTableWord 24 0x1234D9 = some (.cmpAbsY 0x1234) ∧
    decodeTableWord 8 0xDA = some .nopImpDA ∧ decodeTableWord 24 0x1234DB = some (.dcpAbsY 0x1234) ∧
    decodeTableWord 24 0x1234DC = some (.nopAbsXDC 0x1234) ∧ decodeTableWord 24 0x1234DD = some (.cmpAbsX 0x1234) ∧
    decodeTableWord 24 0x1234DE = some (.decAbsX 0x1234) ∧ decodeTableWord 24 0x1234DF = some (.dcpAbsX 0x1234) := by
  decide

theorem test_decode_row_E :
    decodeTableWord 16 0x42E0 = some (.cpxImm 0x42) ∧ decodeTableWord 16 0x42E1 = some (.sbcIndX 0x42) ∧
    decodeTableWord 16 0x42E2 = some (.nopImmE2 0x42) ∧ decodeTableWord 16 0x42E3 = some (.isbIndX 0x42) ∧
    decodeTableWord 16 0x42E4 = some (.cpxZp 0x42) ∧ decodeTableWord 16 0x42E5 = some (.sbcZp 0x42) ∧
    decodeTableWord 16 0x42E6 = some (.incZp 0x42) ∧ decodeTableWord 16 0x42E7 = some (.isbZp 0x42) ∧
    decodeTableWord 8 0xE8 = some .inx ∧ decodeTableWord 16 0x42E9 = some (.sbcImm 0x42) ∧
    decodeTableWord 8 0xEA = some .nop ∧ decodeTableWord 16 0x42EB = some (.sbcImmEB 0x42) ∧
    decodeTableWord 24 0x1234EC = some (.cpxAbs 0x1234) ∧ decodeTableWord 24 0x1234ED = some (.sbcAbs 0x1234) ∧
    decodeTableWord 24 0x1234EE = some (.incAbs 0x1234) ∧ decodeTableWord 24 0x1234EF = some (.isbAbs 0x1234) := by
  decide

theorem test_decode_row_F :
    decodeTableWord 16 0x42F0 = some (.beq 0x42) ∧ decodeTableWord 16 0x42F1 = some (.sbcIndY 0x42) ∧
    decodeTableWord 24 0x1234F2 = none ∧ decodeTableWord 16 0x42F3 = some (.isbIndY 0x42) ∧
    decodeTableWord 16 0x42F4 = some (.nopZpXF4 0x42) ∧ decodeTableWord 16 0x42F5 = some (.sbcZpX 0x42) ∧
    decodeTableWord 16 0x42F6 = some (.incZpX 0x42) ∧ decodeTableWord 16 0x42F7 = some (.isbZpX 0x42) ∧
    decodeTableWord 8 0xF8 = some .sed ∧ decodeTableWord 24 0x1234F9 = some (.sbcAbsY 0x1234) ∧
    decodeTableWord 8 0xFA = some .nopImpFA ∧ decodeTableWord 24 0x1234FB = some (.isbAbsY 0x1234) ∧
    decodeTableWord 24 0x1234FC = some (.nopAbsXFC 0x1234) ∧ decodeTableWord 24 0x1234FD = some (.sbcAbsX 0x1234) ∧
    decodeTableWord 24 0x1234FE = some (.incAbsX 0x1234) ∧ decodeTableWord 24 0x1234FF = some (.isbAbsX 0x1234) := by
  decide

/-- R134: BRK needs no second byte. R502: an operand that is cut off does not decode. -/
theorem test_decode_truncation :
    decode Config.standard [0x00] = .ok (.brk, []) ∧ decode Config.standard [0xAD, 0x00] = .error .truncatedOperand ∧
    decode Config.standard [0xA9, 0x80, 0xE8] = .ok (.ldaImm 0x80, [0xE8]) := ⟨rfl, rfl, rfl⟩

theorem test_encode_little_endian :
    encode (.jmpInd 0x02FF) = [0x6C, 0xFF, 0x02] ∧ encode (.bne 0xF8) = [0xD0, 0xF8] ∧ encode .aslAcc = [0x0A] := by
  decide

/-! ## WellFormed: an ill-formed term for each check -/

/-- A configuration without the undocumented opcodes. -/
def cfgNoIllegal : Config := { Config.standard with illegalSet := .none }
/-- A configuration in which 0xDB halts (T102). -/
def cfgHaltDB : Config := { Config.standard with haltOpcodes := [0xDB] }

theorem test_wellFormed_refuses_undocumented :
    (Instr.laxZp 0x10).wellFormed cfgNoIllegal = false ∧ (Instr.laxZp 0x10).wellFormed Config.standard = true ∧
    (Instr.ldaZp 0x10).wellFormed cfgNoIllegal = true := by decide

theorem test_wellFormed_refuses_halt_opcode :
    (Instr.dcpAbsY 0x1234).wellFormed cfgHaltDB = false ∧ (Instr.dcpAbsY 0x1234).wellFormed Config.standard = true := by decide

theorem test_launch_wf_refuses :
    ¬ ({ Launch.zero with memInit := [(2048, 0x01)] } : Launch).wf { Config.standard with memSize := .b2048 } ∧
    ¬ ({ Launch.zero with memInit := [(5, 0x01), (4, 0x01)] } : Launch).wf Config.standard ∧
    ¬ ({ Launch.zero with memInit := [(5, 0x00)] } : Launch).wf Config.standard := by decide

/-! ## One step of the vectors of 95_test_vectors.md -/

/-- The next state of a step, if the step gives one. -/
def next (s : State) : Option State :=
  match step s with
  | .next t => some t
  | _ => none

/-- All flags clear. -/
def noFlags : Flags := { c := false, z := false, i := false, d := false, b := false, v := false, n := false }

/-- A start state of a vector: stream mode, the bytes at PC = 0, every other value 0. -/
def start (code : List Byte) : State := { State.reset with code := code }

/-- A start state at another PC: the bytes of CODE below it are 0x00. -/
def startAt (pc : Addr) (code : List Byte) : State :=
  { State.reset with pc := pc, code := List.replicate pc.toNat 0x00 ++ code }

/-- MEM_SIZE = 2048 with OOB_POLICY = error. -/
def cfg2K : Config := { Config.standard with memSize := .b2048, oobPolicy := .error }

/-- T5: the (zp),Y pointer at 0xFF takes its high byte from 0x00, and the base plus Y wraps at 16 bits. -/
theorem test_T5_lda : let s := { start [0xB1, 0xFF] with y := 0x01, mem := [(0x0000, 0xFF), (0x00FF, 0xFF)] }
    next s = some { s with a := 0xFF, p := { noFlags with n := true }, pc := 0x0002 } := by decide
/-- T97: with MEM_SIZE = 2048 and wrap, 0x0800 is 0x0000. -/
theorem test_T97_lda :
    let s := { start [0xAD, 0x00, 0x08] with cfg := { cfg2K with oobPolicy := .wrap }, mem := [(0x0000, 0x66)] }
    next s = some { s with a := 0x66, pc := 0x0003 } := by decide
theorem test_T6_ldx : let s := { start [0xB6, 0xFF] with y := 0x02, mem := [(0x0001, 0x80)] }
    next s = some { s with x := 0x80, p := { noFlags with n := true }, pc := 0x0002 } := by decide
theorem test_T7_ldy : let s := { start [0xAC, 0x34, 0x12] with y := 0x55 }
    next s = some { s with y := 0x00, p := { noFlags with z := true }, pc := 0x0003 } := by decide
/-- T8: the (zp,X) pointer at 0xFF takes its high byte from 0x00. -/
theorem test_T8_sta : let s := { start [0x81, 0xFE] with a := 0x77, x := 0x01, mem := [(0x0000, 0x03)] }
    next s = some { s with mem := [(0x0000, 0x03), (0x0300, 0x77)], pc := 0x0002 } := by decide
/-- T99: a failed store writes nothing. -/
theorem test_T99_sta : let s := { start [0x9D, 0xFF, 0x07] with cfg := cfg2K, a := 0x44, x := 0x01 }
    next s = some { s with fault := some (.outOfBoundsAddress 0x0800), eng := .halted } := by decide
theorem test_T9_stx : let s := { start [0x96, 0xF0] with x := 0x33, y := 0x20 }
    next s = some { s with mem := [(0x0010, 0x33)], pc := 0x0002 } := by decide
theorem test_T10_sty : let s := { start [0x8C, 0x00, 0x02] with y := 0x80 }
    next s = some { s with mem := [(0x0200, 0x80)], pc := 0x0003 } := by decide
theorem test_T11_inc : let s := { start [0xE6, 0x10] with mem := [(0x0010, 0xFF)] }
    next s = some { s with mem := [], p := { noFlags with z := true }, pc := 0x0002 } := by decide
theorem test_T12_dec : let s := { start [0xC6, 0x10] with p := { noFlags with c := true } }
    next s = some { s with mem := [(0x0010, 0xFF)], p := { noFlags with c := true, n := true }, pc := 0x0002 } := by decide
theorem test_T13_inx : let s := { start [0xE8] with x := 0x7F }
    next s = some { s with x := 0x80, p := { noFlags with n := true }, pc := 0x0001 } := by decide
theorem test_T14_iny : let s := { start [0xC8] with y := 0xFF }
    next s = some { s with y := 0x00, p := { noFlags with z := true }, pc := 0x0001 } := by decide
theorem test_T15_dex : let s := start [0xCA]
    next s = some { s with x := 0xFF, p := { noFlags with n := true }, pc := 0x0001 } := by decide
theorem test_T16_dey : let s := { start [0x88] with y := 0x01 }
    next s = some { s with y := 0x00, p := { noFlags with z := true }, pc := 0x0001 } := by decide
theorem test_T19_cmp : let s := { start [0xC9, 0x41] with a := 0x40 }
    next s = some { s with p := { noFlags with n := true }, pc := 0x0002 } := by decide
/-- T20: the comparison is unsigned. -/
theorem test_T20_cmp : let s := { start [0xC9, 0x01] with a := 0x80 }
    next s = some { s with p := { noFlags with c := true }, pc := 0x0002 } := by decide
theorem test_T22_cpx : let s := { start [0xE0, 0x05] with x := 0x05 }
    next s = some { s with p := { noFlags with c := true, z := true }, pc := 0x0002 } := by decide
theorem test_T23_cpy : let s := start [0xC0, 0x80]
    next s = some { s with p := { noFlags with n := true }, pc := 0x0002 } := by decide
theorem test_T24_bit : let s := { start [0x24, 0x10] with a := 0x0F, p := { noFlags with c := true }, mem := [(0x0010, 0xC0)] }
    next s = some { s with p := { noFlags with c := true, z := true, v := true, n := true }, pc := 0x0002 } := by decide
theorem test_T25_bit :
    let s := { start [0x2C, 0x00, 0x02] with a := 0xFF, p := { noFlags with v := true, n := true }, mem := [(0x0200, 0x01)] }
    next s = some { s with p := noFlags, pc := 0x0003 } := by decide
theorem test_T26_and : let s := { start [0x29, 0x0F] with a := 0xF0 }
    next s = some { s with a := 0x00, p := { noFlags with z := true }, pc := 0x0002 } := by decide
theorem test_T27_ora : let s := { start [0x09, 0x80] with a := 0x01 }
    next s = some { s with a := 0x81, p := { noFlags with n := true }, pc := 0x0002 } := by decide
theorem test_T28_eor : let s := { start [0x49, 0xFF] with a := 0xFF, p := { noFlags with c := true, v := true } }
    next s = some { s with a := 0x00, p := { noFlags with c := true, z := true, v := true }, pc := 0x0002 } := by decide
theorem test_T31_adc : let s := { start [0x69, 0xFF] with a := 0x80 }
    next s = some { s with a := 0x7F, p := { noFlags with c := true, v := true }, pc := 0x0002 } := by decide
/-- T41: DECIMAL_MODE = refuse. -/
theorem test_T41_adc :
    let s := { start [0x69, 0x01] with a := 0x09, p := { noFlags with d := true },
                                       cfg := { Config.standard with decimalMode := .refuse } }
    next s = some { s with refused := true, eng := .halted } := by decide
theorem test_T35_sbc : let s := start [0xE9, 0x00]
    next s = some { s with a := 0xFF, p := { noFlags with n := true }, pc := 0x0002 } := by decide
theorem test_T37_sbc : let s := { start [0xE9, 0xB0] with a := 0x50, p := { noFlags with c := true } }
    next s = some { s with a := 0xA0, p := { noFlags with v := true, n := true }, pc := 0x0002 } := by decide
theorem test_T42_asl : let s := { start [0x0A] with a := 0x80 }
    next s = some { s with a := 0x00, p := { noFlags with c := true, z := true }, pc := 0x0001 } := by decide
theorem test_T43_asl : let s := { start [0x06, 0x10] with mem := [(0x0010, 0x41)] }
    next s = some { s with mem := [(0x0010, 0x82)], p := { noFlags with n := true }, pc := 0x0002 } := by decide
theorem test_T44_lsr : let s := { start [0x4A] with a := 0x01 }
    next s = some { s with a := 0x00, p := { noFlags with c := true, z := true }, pc := 0x0001 } := by decide
theorem test_T45_lsr : let s := { start [0x46, 0x10] with p := { noFlags with n := true }, mem := [(0x0010, 0xFF)] }
    next s = some { s with mem := [(0x0010, 0x7F)], p := { noFlags with c := true }, pc := 0x0002 } := by decide
theorem test_T46_rol : let s := { start [0x2A] with a := 0x80, p := { noFlags with c := true } }
    next s = some { s with a := 0x01, pc := 0x0001 } := by decide
theorem test_T48_ror : let s := { start [0x6A] with a := 0x01 }
    next s = some { s with a := 0x00, p := { noFlags with c := true, z := true }, pc := 0x0001 } := by decide
theorem test_T49_ror : let s := { start [0x6E, 0x00, 0x02] with p := { noFlags with c := true } }
    next s = some { s with mem := [(0x0200, 0x80)], p := { noFlags with n := true }, pc := 0x0003 } := by decide
theorem test_T50_bpl : let s := start [0x10, 0x05]
    next s = some { s with pc := 0x0007 } := by decide
theorem test_T51_bmi : let s := start [0x30, 0x05]
    next s = some { s with pc := 0x0002 } := by decide
/-- T52 at PC = 4: a branch to itself. -/
theorem test_T52_bvc : let s := startAt 0x0004 [0x50, 0xFE]
    next s = some { s with pc := 0x0004 } := by decide
/-- R324 at PC = 2: a taken branch forward. -/
theorem test_R324_bvs : let s := { startAt 0x0002 [0x70, 0x10] with p := { noFlags with v := true } }
    next s = some { s with pc := 0x0014 } := by decide
/-- R325 at PC = 2: not taken. -/
theorem test_R325_bcc : let s := { startAt 0x0002 [0x90, 0x10] with p := { noFlags with c := true } }
    next s = some { s with pc := 0x0004 } := by decide
/-- T55: backward, below 0. -/
theorem test_T55_bcs : let s := { startAt 0x0010 [0xB0, 0x80] with p := { noFlags with c := true } }
    next s = some { s with pc := 0xFF92 } := by decide
theorem test_T56_bne : let s := startAt 0x000A [0xD0, 0xF8]
    next s = some { s with pc := 0x0004 } := by decide
/-- T58: memory mode, forward past 0xFFFF. -/
theorem test_T58_beq :
    let s := { State.reset with cfg := { Config.standard with fetchSource := .memory }, pc := 0xFFF0,
                                p := { noFlags with z := true }, mem := [(0xFFF0, 0xF0), (0xFFF1, 0x7F)] }
    next s = some { s with pc := 0x0071 } := by decide
theorem test_T59_jmp : let s := start [0x4C, 0x34, 0x12]
    next s = some { s with pc := 0x1234 } := by decide
/-- T60: the high byte of the target comes from 0x0200, not 0x0300. -/
theorem test_T60_jmp : let s := { start [0x6C, 0xFF, 0x02] with mem := [(0x0200, 0x40), (0x0300, 0x80)] }
    next s = some { s with pc := 0x4000 } := by decide
/-- T64: the stack wraps; the high byte 0x00 goes to 0x0100. -/
theorem test_T64_jsr : let s := start [0x20, 0x00, 0x30]
    next s = some { s with sp := 0xFE, mem := [(0x01FF, 0x02)], pc := 0x3000 } := by decide
/-- T98: a target outside memory is no error. -/
theorem test_T98_jsr : let s := { start [0x20, 0x00, 0x08] with cfg := cfg2K, sp := 0xFD }
    next s = some { s with sp := 0xFB, mem := [(0x01FC, 0x02)], pc := 0x0800 } := by decide
theorem test_T63_rts : let s := { start [0x60] with sp := 0xFB, mem := [(0x01FC, 0x02)] }
    next s = some { s with sp := 0xFD, pc := 0x0003 } := by decide
theorem test_T65_brk : let s := { start [0x00] with sp := 0xFD, p := { noFlags with c := true }, mem := [(0xFFFF, 0x80)] }
    next s = some { s with sp := 0xFA, p := { noFlags with c := true, i := true },
                           mem := [(0x01FB, 0x31), (0x01FC, 0x02), (0xFFFF, 0x80)], pc := 0x8000 } := by decide
/-- T100: the vector lies outside memory, and the pushes are discarded. -/
theorem test_T100_brk : let s := { start [0x00] with cfg := cfg2K, sp := 0xFD }
    next s = some { s with fault := some (.outOfBoundsAddress 0xFFFE), eng := .halted } := by decide
theorem test_T66_rti : let s := { start [0x40] with sp := 0xFA, mem := [(0x01FB, 0xFF), (0x01FC, 0x02)] }
    next s = some { s with sp := 0xFD, pc := 0x0002, p := { c := true, z := true, i := true, d := true, b := false, v := true,
                                                            n := true } } := by decide
theorem test_T67_pha : let s := { start [0x48] with a := 0x37 }
    next s = some { s with sp := 0xFF, mem := [(0x0100, 0x37)], pc := 0x0001 } := by decide
theorem test_T68_pla : let s := { start [0x68] with sp := 0xFF, mem := [(0x0100, 0x80)] }
    next s = some { s with a := 0x80, sp := 0x00, p := { noFlags with n := true }, pc := 0x0001 } := by decide
theorem test_T69_php : let s := { start [0x08] with sp := 0xFD, p := { noFlags with c := true, z := true } }
    next s = some { s with sp := 0xFC, mem := [(0x01FD, 0x33)], pc := 0x0001 } := by decide
theorem test_T70_plp : let s := { start [0x28] with sp := 0xFC, p := { noFlags with c := true, d := true }, mem := [(0x01FD, 0x30)] }
    next s = some { s with sp := 0xFD, p := noFlags, pc := 0x0001 } := by decide
theorem test_T71_tax : let s := { start [0xAA] with x := 0x55 }
    next s = some { s with x := 0x00, p := { noFlags with z := true }, pc := 0x0001 } := by decide
theorem test_T72_tay : let s := { start [0xA8] with a := 0x90 }
    next s = some { s with y := 0x90, p := { noFlags with n := true }, pc := 0x0001 } := by decide
theorem test_T73_txa : let s := { start [0x8A] with a := 0xFF, x := 0x01 }
    next s = some { s with a := 0x01, pc := 0x0001 } := by decide
theorem test_T74_tya : let s := { start [0x98] with a := 0x12 }
    next s = some { s with a := 0x00, p := { noFlags with z := true }, pc := 0x0001 } := by decide
theorem test_T75_tsx : let s := { start [0xBA] with sp := 0xFD }
    next s = some { s with x := 0xFD, p := { noFlags with n := true }, pc := 0x0001 } := by decide
/-- T76: TXS writes no flag. -/
theorem test_T76_txs : let s := { start [0x9A] with sp := 0x77, p := { noFlags with n := true } }
    next s = some { s with sp := 0x00, pc := 0x0001 } := by decide
theorem test_R390_clc : let s := { start [0x18] with p := { noFlags with c := true } }
    next s = some { s with p := noFlags, pc := 0x0001 } := by decide
theorem test_R391_sec : let s := start [0x38]
    next s = some { s with p := { noFlags with c := true }, pc := 0x0001 } := by decide
theorem test_R392_cli : let s := { start [0x58] with p := { noFlags with i := true } }
    next s = some { s with p := noFlags, pc := 0x0001 } := by decide
theorem test_R393_sei : let s := start [0x78]
    next s = some { s with p := { noFlags with i := true }, pc := 0x0001 } := by decide
theorem test_R394_cld : let s := { start [0xD8] with p := { noFlags with d := true } }
    next s = some { s with p := noFlags, pc := 0x0001 } := by decide
theorem test_R395_sed : let s := start [0xF8]
    next s = some { s with p := { noFlags with d := true }, pc := 0x0001 } := by decide
theorem test_T80_clv : let s := { start [0xB8] with p := { noFlags with v := true } }
    next s = some { s with p := noFlags, pc := 0x0001 } := by decide
theorem test_T81_nop : let s := { start [0xEA] with a := 0x11 }
    next s = some { s with pc := 0x0001 } := by decide
theorem test_T82_slo : let s := { start [0x07, 0x10] with a := 0x10, mem := [(0x0010, 0x81)] }
    next s = some { s with a := 0x12, mem := [(0x0010, 0x02)], p := { noFlags with c := true }, pc := 0x0002 } := by decide
theorem test_T83_rla :
    let s := { start [0x27, 0x10] with a := 0xFF, p := { noFlags with c := true }, mem := [(0x0010, 0x80)] }
    next s = some { s with a := 0x01, mem := [(0x0010, 0x01)], pc := 0x0002 } := by decide
theorem test_T84_sre : let s := { start [0x47, 0x10] with a := 0x01, mem := [(0x0010, 0x03)] }
    next s = some { s with a := 0x00, mem := [(0x0010, 0x01)], p := { noFlags with c := true, z := true }, pc := 0x0002 } := by
  decide
theorem test_T85_rra :
    let s := { start [0x67, 0x10] with a := 0x10, p := { noFlags with c := true }, mem := [(0x0010, 0x02)] }
    next s = some { s with a := 0x91, mem := [(0x0010, 0x81)], p := { noFlags with n := true }, pc := 0x0002 } := by decide
theorem test_T86_dcp : let s := { start [0xC7, 0x10] with a := 0xFF }
    next s = some { s with mem := [(0x0010, 0xFF)], p := { noFlags with c := true, z := true }, pc := 0x0002 } := by decide
theorem test_T87_isb :
    let s := { start [0xE7, 0x10] with a := 0x05, p := { noFlags with c := true }, mem := [(0x0010, 0xFF)] }
    next s = some { s with mem := [], pc := 0x0002 } := by decide
theorem test_T88_lax : let s := { start [0xA7, 0x10] with mem := [(0x0010, 0x80)] }
    next s = some { s with a := 0x80, x := 0x80, p := { noFlags with n := true }, pc := 0x0002 } := by decide
theorem test_T89_sax : let s := { start [0x87, 0x10] with a := 0xF0, x := 0x3C, p := { noFlags with n := true } }
    next s = some { s with mem := [(0x0010, 0x30)], pc := 0x0002 } := by decide
theorem test_T90_sbc_EB : let s := { start [0xEB, 0x01] with a := 0x05, p := { noFlags with c := true } }
    next s = some { s with a := 0x04, pc := 0x0002 } := by decide
theorem test_T91_nop_0C : let s := start [0x0C, 0x34, 0x12]
    next s = some { s with pc := 0x0003 } := by decide
/-- T92: a NOP variant makes no access, so it meets no error. -/
theorem test_T92_nop_1C : let s := { start [0x1C, 0xFF, 0x07] with cfg := cfg2K, x := 0x01 }
    next s = some { s with pc := 0x0003 } := by decide
theorem test_T93_unknown : let s := { start [0x02] with a := 0x12 }
    next s = some { s with fault := some (.unknownOpcode 0x02 0x0000), eng := .halted } := by decide
theorem test_T94_unknown : let s := { start [0xA7, 0x10] with cfg := cfgNoIllegal }
    next s = some { s with fault := some (.unknownOpcode 0xA7 0x0000), eng := .halted } := by decide
theorem test_T95_truncated : let s := start [0xAD, 0x00]
    next s = some { s with fault := some (.truncatedOperand 0x0000), eng := .halted } := by decide
theorem test_T101_end_of_stream : let s := start []
    next s = some { s with stop := some .endOfStream, eng := .halted } := by decide
theorem test_T102_halt : let s := { start [0xDB] with cfg := cfgHaltDB }
    next s = some { s with stop := some (.haltOpcode 0xDB 0x0000), eng := .halted } := by decide
/-- P6: with FETCH_SOURCE = memory the step executes the byte that a store has put into memory. -/
theorem test_P6_memory_fetch :
    let s := { State.reset with cfg := { Config.standard with fetchSource := .memory }, pc := 0x0005,
                                mem := [(0x0005, 0xA9), (0x0006, 0x42)] }
    next s = some { s with a := 0x42, pc := 0x0007 } := by decide

/-! ## Reset, placing an instruction, and Halted -/

/-- From reset with nothing placed, the first step is EndOfStream, and after it no step is enabled (R45, R507). -/
theorem test_reset_alone :
    next State.reset = some { State.reset with stop := some .endOfStream, eng := .halted } ∧
    next { State.reset with stop := some .endOfStream, eng := .halted } = none := by decide

/-- An instruction placed at PC is the one the next step runs, in either fetch mode. -/
theorem test_withFetchWord :
    (next (State.reset.withFetchWord 16 0x80A9)).map (fun t => (t.a, t.pc, t.eng)) = some (0x80, 0x0002, .ready) ∧
    (next (State.reset.withFetchWord 8 0xE8)).map (fun t => (t.x, t.pc)) = some (0x01, 0x0001) ∧
    (next (({ State.reset with cfg := { Config.standard with fetchSource := .memory }, pc := 0xFFFF }).withFetchWord 24
      0x12344C)).map (fun t => t.pc) = some 0x1234 := by decide

/-! ## Witnesses: states and operands that meet the hypotheses of each statement together, one for each clause -/

/-- A well-formed Ready state whose next instruction is INX, with some memory. -/
def busy : State :=
  { start [0xE8] with a := 0x80, x := 0xFF, y := 0x02, sp := 0xFD, mem := [(0x0010, 0x81), (0x0011, 0x02), (0x0281, 0x7F)] }

/-- `busy` with MEM_SIZE = 512 and OOB_POLICY = error. -/
def busy512 : State :=
  { busy with cfg := { Config.standard with memSize := .b512, oobPolicy := .error }, mem := [(0x0010, 0x81)] }

theorem witness_CreatedStatesAreWellFormed :
    ({ Launch.zero with memInit := [(511, 0xFF)], code := List.replicate 65536 0xEA, start := 0xFFFF } : Launch).wf
      { Config.standard with memSize := .b512 } :=
  ⟨by decide, by decide, (List.length_replicate (n := 65536)).le⟩

theorem witness_StepKeepsStateWellFormed : busy.wf ∧ ∃ t, step busy = .next t ∧ t.x = 0x00 := ⟨by decide, _, rfl, rfl⟩

theorem witness_StepKeepsSessionInputs : ∃ t, step busy = .next t := ⟨_, rfl⟩

theorem witness_BreakFlagIsKeptAndUnobservable :
    (∃ t, step busy = .next t) ∧ (∃ e, step { State.reset with eng := .halted, stop := some .endOfStream } = .fault e) ∧
    (∃ r, step { State.reset with eng := .halted, refused := true } = .refused r) := ⟨⟨_, rfl⟩, ⟨_, rfl⟩, ⟨_, rfl⟩⟩

theorem witness_HaltingStepsChangeNothingButTheirRecord :
    (∃ t, step (start [0x02]) = .next t ∧ t.eng = .halted ∧ t.fault.isSome = true) ∧
    (∃ t, step (start []) = .next t ∧ t.eng = .halted ∧ t.stop.isSome = true) ∧
    (∃ t, step { start [0x69, 0x01] with cfg := { Config.standard with decimalMode := .refuse },
                                         p := { noFlags with d := true } } = .next t ∧ t.eng = .halted ∧ t.refused = true) ∧
    (∃ t, step busy = .next t ∧ t.eng = .ready) :=
  ⟨⟨_, rfl, rfl, rfl⟩, ⟨_, rfl, rfl, rfl⟩, ⟨_, rfl, rfl, rfl⟩, ⟨_, rfl, rfl⟩⟩

theorem witness_DecodeOfEncodeIsTheInstruction :
    (Instr.isbAbsX 0xFFFF).wellFormed Config.standard = true ∧ Instr.brk.wellFormed cfgNoIllegal = true := by decide

theorem witness_DecodedBytesAreAnEncoding :
    decode cfgNoIllegal [0x6C, 0xFF, 0x02, 0x00] = .ok (.jmpInd 0x02FF, [0x00]) ∧ decode cfgHaltDB [0x00] = .ok (.brk, []) :=
  ⟨rfl, rfl⟩

/-- A stream instruction that ends exactly at CODE_LEN, and a memory instruction that runs past 0xFFFF. -/
theorem witness_StepRunsTheDecodedInstruction :
    ((start [0xA9, 0x80]).codeInRange ∧ decode Config.standard ((start [0xA9, 0x80]).code.drop 0) = .ok (.ldaImm 0x80, [])) ∧
    (let s := { State.reset with cfg := { Config.standard with fetchSource := .memory }, pc := 0xFFFF,
                                 mem := [(0x0000, 0x05), (0xFFFF, 0xA9)] }
     s.eng = .ready ∧ s.codeInRange ∧
     (∀ (k : Nat) (b : Byte), [(0xA9 : Byte), 0x05][k]? = some b → memRead s (s.pc + BitVec.ofNat 16 k) = .ok b) ∧
     decode s.cfg [0xA9, 0x05] = .ok (.ldaImm 0x05, [])) := by
  refine ⟨⟨by decide, rfl⟩, rfl, by decide, fun k b h => ?_, rfl⟩
  match k, h with
  | 0, h => cases h; rfl
  | 1, h => cases h; rfl
  | k + 2, h => simp at h

theorem witness_UnknownOpcodeHalts :
    (beyondCode (start [0x02]) 1 = false ∧ fetchByte (start [0x02]) 0 = .ok 0x02 ∧ ¬ opcodeAdmitted Config.standard 0x02) ∧
    (fetchByte { start [0xA7] with cfg := cfgNoIllegal } 0 = .ok 0xA7 ∧ ¬ opcodeAdmitted cfgNoIllegal 0xA7) ∧
    (fetchByte { start [0xDB] with cfg := cfgHaltDB } 0 = .ok 0xDB ∧ (0xDB : Byte) ∈ cfgHaltDB.haltOpcodes) ∧
    (fetchByte busy 0 = .ok 0xE8 ∧ opcodeAdmitted busy.cfg 0xE8 ∧ busy.fault = none ∧ ∃ t, step busy = .next t) :=
  ⟨⟨rfl, rfl, by decide⟩, ⟨rfl, by decide⟩, ⟨rfl, by decide⟩, rfl, by decide, rfl, _, rfl⟩

theorem witness_TruncatedOperandHalts :
    ((start [0xAD, 0x00]).code[(0 : Nat)]? = some 0xAD ∧
      (∃ f, classify Config.standard 0xAD = .admitted (.three f) ∧ 2 < (Template.three f).length)) ∧
    (∃ t, step { State.reset with cfg := { Config.standard with fetchSource := .memory } } = .next t) :=
  ⟨⟨rfl, _, rfl, by decide⟩, _, rfl⟩

/-- PC exactly at CODE_LEN, a halt opcode whose operand would be cut off, and a stop from a state that records nothing. -/
theorem witness_NormalStopsHalt :
    ((startAt 0x0002 []).code.length ≤ (startAt 0x0002 []).pc.toNat) ∧
    (beyondCode { start [0xDB] with cfg := cfgHaltDB } 1 = false ∧ (0xDB : Byte) ∈ cfgHaltDB.haltOpcodes) ∧
    ((start []).recordsAgree ∧ ∃ t, step (start []) = .next t ∧ t.stop.isSome = true) :=
  ⟨by decide, ⟨rfl, by decide⟩, by decide, _, rfl, rfl⟩

/-- Memory mode with MEM_SIZE = 512: PC at 512, an opcode at 511 with one operand byte, an opcode at 510 with two. -/
theorem witness_FetchOutOfBoundsHalts :
    let c : Config := { Config.standard with memSize := .b512, oobPolicy := .error, fetchSource := .memory }
    let s : State := { State.reset with cfg := c, mem := [(510, 0xAD), (511, 0xA9)] }
    (c.memSize.bytes ≤ (512 : Addr).toNat) ∧
    (memRead { s with pc := 511 } 511 = .ok 0xA9 ∧ (∃ f, classify c 0xA9 = .admitted (.two f)) ∧
      c.memSize.bytes ≤ ((511 : Addr) + 1).toNat) ∧
    (memRead { s with pc := 510 } 510 = .ok 0xAD ∧ (∃ f, classify c 0xAD = .admitted (.three f)) ∧
      memRead { s with pc := 510 } 511 = .ok 0xA9 ∧ c.memSize.bytes ≤ ((510 : Addr) + 2).toNat) :=
  ⟨by decide, ⟨rfl, ⟨_, rfl⟩, by decide⟩, rfl, ⟨_, rfl⟩, rfl, by decide⟩

/-- The last byte of a stream, and an address that memory mode rejects. -/
theorem witness_FetchReadsOnlyItsSource :
    (busy.cfg.fetchSource = .stream ∧ (0x0000 : Addr).toNat < busy.code.length ∧ fetchByte busy 0x0000 = .ok 0xE8) ∧
    (let s : State := { busy512 with cfg := { busy512.cfg with fetchSource := .memory } }
     s.cfg.fetchSource = .memory ∧ fetchByte s 0x0010 = .ok 0x81 ∧
     fetchByte s 0x0200 = .error (.raise (.outOfBoundsAddress 0x0200))) := ⟨⟨rfl, by decide, rfl⟩, rfl, rfl, rfl⟩

theorem witness_MapFollowsPolicy :
    (0x01FF : Addr).toNat < busy512.cfg.memSize.bytes ∧
    (busy512.cfg.memSize.bytes ≤ (0x0200 : Addr).toNat ∧ busy512.cfg.oobPolicy = .error) ∧
    (({ busy512.cfg with oobPolicy := .wrap } : Config).memSize.bytes ≤ (0xFFFF : Addr).toNat) ∧
    Config.standard.memSize = .b65536 := by decide

theorem witness_ReadAfterWrite :
    busy.mem.wf ∧ (∃ t, memWrite busy 0xFFFF 0x55 = .ok t) ∧ mapAddr busy.cfg 0xFFFF = .ok 65535 ∧
    mapAddr busy.cfg 0x0010 = .ok 16 := ⟨by decide, ⟨_, rfl⟩, rfl, rfl⟩

theorem witness_AliasedAddressesNameOneByte :
    let s : State := { busy512 with cfg := { busy512.cfg with oobPolicy := .wrap } }
    s.mem.wf ∧ s.cfg.oobPolicy = .wrap ∧
    (0x0010 : Addr).toNat % s.cfg.memSize.bytes = (0x0210 : Addr).toNat % s.cfg.memSize.bytes := by decide

theorem witness_PullReturnsTheLastPush : busy.mem.wf ∧ ∃ t, push { busy with sp := 0x00 } 0x7E = .ok t := ⟨by decide, _, rfl⟩

/-- An instruction that changes each register, and one shift of the accumulator. -/
theorem witness_RegistersChangeOnlyWhereListed :
    (∃ t, exec .txa busy = .next t ∧ t.a ≠ busy.a) ∧ (∃ t, exec .aslAcc busy = .next t ∧ t.a ≠ busy.a) ∧
    (∃ t, exec .inx busy = .next t ∧ t.x ≠ busy.x) ∧ (∃ t, exec .dey busy = .next t ∧ t.y ≠ busy.y) ∧
    (∃ t, exec .pha busy = .next t ∧ t.sp ≠ busy.sp) :=
  ⟨⟨_, rfl, by decide⟩, ⟨_, rfl, by decide⟩, ⟨_, rfl, by decide⟩, ⟨_, rfl, by decide⟩, ⟨_, rfl, by decide⟩⟩

theorem witness_FlagsChangeOnlyWhereListed :
    (∃ t, exec .sec busy = .next t ∧ t.p.c ≠ busy.p.c) ∧ (∃ t, exec .inx busy = .next t ∧ t.p.z ≠ busy.p.z) ∧
    (∃ t, exec .dex busy = .next t ∧ t.p.n ≠ busy.p.n) ∧
    (∃ t, exec (.adcImm 0xFF) busy = .next t ∧ t.p.v ≠ busy.p.v) ∧
    (∃ t, exec .sei busy = .next t ∧ t.p.i ≠ busy.p.i) ∧ (∃ t, exec .sed busy = .next t ∧ t.p.d ≠ busy.p.d) :=
  ⟨⟨_, rfl, by decide⟩, ⟨_, rfl, by decide⟩, ⟨_, rfl, by decide⟩, ⟨_, rfl, by decide⟩, ⟨_, rfl, by decide⟩,
   ⟨_, rfl, by decide⟩⟩

theorem witness_NonStoringFormsKeepMemory :
    (∃ t, exec (.cmpZp 0x10) busy = .next t) ∧ (∃ t, exec .rorAcc busy = .next t) ∧ Instr.rorAcc.operand = .accumulator :=
  ⟨⟨_, rfl⟩, ⟨_, rfl⟩, rfl⟩

theorem witness_StoringFormsChangeOnlyTheirByte :
    (∃ t, exec (.incAbs 0xFFFF) busy = .next t) ∧ (Instr.incAbs 0xFFFF).triple = (.inc, .memory (.abs 0xFFFF)) ∧
    effAddr (.abs 0xFFFF) busy = .ok 0xFFFF ∧ mapAddr busy.cfg 0x0010 ≠ mapAddr busy.cfg 0xFFFF :=
  ⟨⟨_, rfl⟩, rfl, rfl, by simp [mapAddr, busy, start, State.reset, State.create, Config.standard, MemSize.bytes]⟩

/-- PHA, JSR and BRK with SP = 0, and an address outside their slots. -/
theorem witness_PushingFormsChangeOnlyTheirSlots :
    let s : State := { busy with sp := 0x00 }
    (∃ t, exec .pha s = .next t) ∧ (∃ t, exec (.jsrAbs 0x0010) s = .next t) ∧ (∃ t, exec .brk s = .next t) ∧
    (∀ k < 3, mapAddr s.cfg 0x01FD ≠ .ok (stackIndex (s.sp - BitVec.ofNat 8 k))) := by
  refine ⟨⟨_, rfl⟩, ⟨_, rfl⟩, ⟨_, rfl⟩, fun k hk => ?_⟩
  have h : mapAddr busy.cfg 0x01FD = .ok 509 := rfl
  rw [h]
  match k, hk with
  | 0, _ => decide
  | 1, _ => decide
  | 2, _ => decide

/-- An instruction of each length; the last ends at the top of the address space. -/
theorem witness_SequentialInstructionsAdvanceByLength :
    (∃ t, exec .nop busy = .next t ∧ t.eng = .ready) ∧
    (∃ t, exec (.ldaImm 0x00) busy = .next t ∧ t.eng = .ready) ∧
    (∃ t, exec (.staAbs 0x0200) { busy with pc := 0xFFFE } = .next t ∧ t.eng = .ready) :=
  ⟨⟨_, rfl, rfl⟩, ⟨_, rfl, rfl⟩, ⟨_, rfl, rfl⟩⟩

/-- Operands of the reading forms: an immediate, a direct byte, an indexed byte and the two indirect modes. -/
theorem witness_readSource :
    readSource (.imm 0x00) busy = .ok 0x00 ∧ readSource (.mem (.zp 0x10)) busy = .ok 0x81 ∧
    readSource (.mem (.zpX 0x11)) busy = .ok 0x81 ∧ readSource (.mem (.absY 0x027F)) busy = .ok 0x7F ∧
    readSource (.mem (.indX 0x11)) busy = .ok 0x7F ∧ readSource (.mem (.indY 0x10)) busy = .ok 0x00 :=
  ⟨rfl, rfl, rfl, rfl, rfl, rfl⟩

theorem witness_LoadsTakeTheOperand :
    (Instr.ldaIndX 0x11).triple = (.lda, (Source.mem (.indX 0x11)).operand) ∧
    (Instr.ldxImm 0x00).triple = (.ldx, (Source.imm 0x00).operand) ∧
    (Instr.ldyZp 0x10).triple = (.ldy, (Source.mem (.zp 0x10)).operand) ∧
    (Instr.laxAbsY 0x027F).triple = (.lax, (Source.mem (.absY 0x027F)).operand) := ⟨rfl, rfl, rfl, rfl⟩

/-- A mapped operand of the storing and modifying forms, direct and through a pointer. -/
theorem witness_effAddr :
    (effAddr (.zp 0x10) busy = .ok 0x0010 ∧ mapAddr busy.cfg 0x0010 = .ok 16) ∧
    (effAddr (.indX 0x11) busy = .ok 0x0281 ∧ mapAddr busy.cfg 0x0281 = .ok 0x281) ∧
    (effAddr (.absX 0xFFFF) busy = .ok 0x00FE ∧ mapAddr busy.cfg 0x00FE = .ok 254) := ⟨⟨rfl, rfl⟩, ⟨rfl, rfl⟩, rfl, rfl⟩

theorem witness_StoresWriteTheRegister :
    (Instr.staIndX 0x11).triple = (.sta, .memory (.indX 0x11)) ∧ (Instr.stxZp 0x10).triple = (.stx, .memory (.zp 0x10)) ∧
    (Instr.styZp 0x10).triple = (.sty, .memory (.zp 0x10)) ∧ (Instr.saxIndX 0x11).triple = (.sax, .memory (.indX 0x11)) :=
  ⟨rfl, rfl, rfl, rfl⟩

/-- The byte at 0x0010 is 0x81, so INC gives 0x82 and DEC 0x80; the byte at 0x0020 is 0x00, so DEC gives 0xFF. -/
theorem witness_IncrementAndDecrementMemory :
    (Instr.incZp 0x10).triple = (.inc, .memory (.zp 0x10)) ∧ (0x82 : Byte).toNat = ((busy.mem.get 16).toNat + 1) % 256 ∧
    (Instr.decZp 0x20).triple = (.dec, .memory (.zp 0x20)) ∧ (0xFF : Byte).toNat = ((busy.mem.get 32).toNat + 255) % 256 := by
  decide

theorem witness_IncrementThenDecrementRestores :
    busy.mem.wf ∧ (Instr.incAbs 0x0010).triple = (.inc, .memory (.abs 0x0010)) ∧
    (Instr.decAbs 0x0010).triple = (.dec, .memory (.abs 0x0010)) ∧ effAddr (.abs 0x0010) busy = .ok 0x0010 ∧
    mapAddr busy.cfg 0x0010 = .ok 16 := ⟨by decide, rfl, rfl, rfl, rfl⟩

/-- X = 0xFF and Y = 0x02 of `busy`, at the wrap and away from it. -/
theorem witness_IncrementAndDecrementRegisters :
    (0x00 : Byte).toNat = (busy.x.toNat + 1) % 256 ∧ (0x03 : Byte).toNat = (busy.y.toNat + 1) % 256 ∧
    (0xFE : Byte).toNat = (busy.x.toNat + 255) % 256 ∧ (0x01 : Byte).toNat = (busy.y.toNat + 255) % 256 := by decide

theorem witness_ComparesSetCarryZeroNegative :
    (Instr.cmpZp 0x10).triple = (.cmp, (Source.mem (.zp 0x10)).operand) ∧
    (Instr.cpxImm 0x00).triple = (.cpx, (Source.imm 0x00).operand) ∧
    (Instr.cpyZp 0x10).triple = (.cpy, (Source.mem (.zp 0x10)).operand) := ⟨rfl, rfl, rfl⟩

theorem witness_BitTestSetsZeroNegativeOverflow :
    readSource (.mem (.abs 0x0010)) busy = .ok 0x81 ∧ (Instr.bitAbs 0x0010).triple = (.bit, .memory (.abs 0x0010)) :=
  ⟨rfl, rfl⟩

theorem witness_LogicalOperationsOnA :
    (Instr.andIndY 0x10).triple = (.and, (Source.mem (.indY 0x10)).operand) ∧
    (Instr.oraImm 0x00).triple = (.ora, (Source.imm 0x00).operand) ∧
    (Instr.eorZpX 0x11).triple = (.eor, (Source.mem (.zpX 0x11)).operand) := ⟨rfl, rfl, rfl⟩

/-- A = 0x80 and the byte 0x81: the sum 0x101 wraps to 0x01. -/
theorem witness_AddWithCarry :
    readSource (.mem (.zp 0x10)) busy = .ok 0x81 ∧ ¬ busy.decimalRefused ∧
    (Instr.adcZp 0x10).triple = (.adc, (Source.mem (.zp 0x10)).operand) ∧
    (0x01 : Byte).toNat = (busy.a.toNat + (0x81 : Byte).toNat + busy.p.c.toNat) % 256 := ⟨rfl, by decide, rfl, by decide⟩

/-- A = 0x80, C = 0: 0x80 - 0x81 - 1 is 0xFE modulo 256. -/
theorem witness_SubtractWithBorrow :
    readSource (.mem (.zp 0x10)) busy = .ok 0x81 ∧ ¬ busy.decimalRefused ∧
    (Instr.sbcZp 0x10).triple = (.sbc, (Source.mem (.zp 0x10)).operand) ∧
    (Instr.sbcImmEB 0x81).triple = (.sbcU, (Source.imm 0x81).operand) ∧
    ((0xFE : Byte).toNat : Int) = ((busy.a.toNat : Int) - (0x81 : Byte).toNat - (1 - busy.p.c.toNat)) % 256 :=
  ⟨rfl, by decide, rfl, rfl, by decide⟩

theorem witness_DecimalArithmeticIsRefusedExactlyWhenSelected :
    (let s : State := { busy with cfg := { Config.standard with decimalMode := .refuse }, p := { noFlags with d := true } }
     s.decimalRefused ∧ (Instr.rraZp 0x10).mnemonic = .rra ∧ ∃ t, exec .inx s = .next t) ∧
    (¬ ({ busy with p := { noFlags with d := true } } : State).decimalRefused ∧
      ∃ t, exec (.adcImm 0x01) { busy with p := { noFlags with d := true } } = .next t) :=
  ⟨⟨by decide, rfl, _, rfl⟩, by decide, _, rfl⟩

/-- A = 0x80 and C = 0. -/
theorem witness_AccumulatorShifts :
    (0x00 : Byte).toNat = 2 * busy.a.toNat % 256 ∧ (0x40 : Byte).toNat = busy.a.toNat / 2 ∧
    (0x00 : Byte).toNat = (2 * busy.a.toNat + busy.p.c.toNat) % 256 ∧
    (0x40 : Byte).toNat = busy.a.toNat / 2 + 128 * busy.p.c.toNat := by decide

/-- The byte at 0x0010 is 0x81 and C = 0. -/
theorem witness_MemoryShifts :
    ((Instr.aslZp 0x10).triple = (.asl, .memory (.zp 0x10)) ∧ (0x02 : Byte).toNat = 2 * (busy.mem.get 16).toNat % 256) ∧
    ((Instr.lsrZp 0x10).triple = (.lsr, .memory (.zp 0x10)) ∧ (0x40 : Byte).toNat = (busy.mem.get 16).toNat / 2) ∧
    ((Instr.rolZp 0x10).triple = (.rol, .memory (.zp 0x10)) ∧
      (0x02 : Byte).toNat = (2 * (busy.mem.get 16).toNat + busy.p.c.toNat) % 256) ∧
    ((Instr.rorZp 0x10).triple = (.ror, .memory (.zp 0x10)) ∧
      (0x40 : Byte).toNat = (busy.mem.get 16).toNat / 2 + 128 * busy.p.c.toNat) := by decide

/-- Offsets 127 and -128 at PC = 0xFFF0 and PC = 0. -/
theorem witness_BranchesFollowTheirFlag :
    (((0x0071 : Addr).toNat : Int) = (((0xFFF0 : Addr).toNat : Int) + 2 + (0x7F : Byte).toInt) % 65536) ∧
    (((0xFF82 : Addr).toNat : Int) = (((0x0000 : Addr).toNat : Int) + 2 + (0x80 : Byte).toInt) % 65536) := by decide

/-- A pointer at the end of its page with both bytes readable, and one outside a memory of 512 bytes. -/
theorem witness_JumpsSetPC :
    ((0x0200 : Addr).toNat = (0x02FF : Addr).toNat / 256 * 256 + ((0x02FF : Addr).toNat + 1) % 256) ∧
    (memRead busy 0x02FF = .ok 0x00 ∧ memRead busy 0x0200 = .ok 0x00) ∧
    (memRead busy512 0x0200 = .error (.raise (.outOfBoundsAddress 0x0200))) := ⟨by decide, ⟨rfl, rfl⟩, rfl⟩

/-- PC + 2 wraps. -/
theorem witness_JumpToSubroutine :
    (0x00 : Byte).toNat * 256 + (0x01 : Byte).toNat = ((0xFFFF : Addr).toNat + 2) % 65536 := by decide

theorem witness_CallThenReturnRestores :
    let s : State := { busy with sp := 0x00 }
    s.mem.wf ∧ ∃ t, exec (.jsrAbs 0x0010) s = .next t ∧ t.sp = t.sp ∧
      ∀ sp : Byte, t.mem.get (stackIndex sp) = t.mem.get (stackIndex sp) := ⟨by decide, _, rfl, rfl, fun _ => rfl⟩

/-- The vector inside memory, and outside it. -/
theorem witness_BreakTakesTheTrap :
    ((0x00 : Byte).toNat * 256 + (0x02 : Byte).toNat = (busy.pc.toNat + 2) % 65536) ∧
    (mapAddr busy.cfg 0xFFFE = .ok 65534 ∧ mapAddr busy.cfg 0xFFFF = .ok 65535) ∧
    (busy512.cfg.oobPolicy = .error ∧ busy512.cfg.memSize ≠ .b65536) := ⟨by decide, ⟨rfl, rfl⟩, rfl, by decide⟩

theorem witness_ReturnFromInterrupt : (0x00 : Byte) = busy.mem.get (stackIndex (busy.sp + 1)) := rfl

theorem witness_BreakThenReturnRestores :
    busy.mem.wf ∧ busy.eng = .ready ∧ ∃ t, exec .brk busy = .next t ∧ t.eng = .ready ∧ t.sp = t.sp ∧
      ∀ sp : Byte, t.mem.get (stackIndex sp) = t.mem.get (stackIndex sp) := ⟨by decide, rfl, _, rfl, rfl, rfl, fun _ => rfl⟩

theorem witness_StackInstructions :
    (0x37 : Byte) = ({ busy with sp := 0xFF, mem := [(0x0100, 0x37)] } : State).mem.get (stackIndex (0xFF + 1)) := by decide

theorem witness_NoOperationsOnlyAdvance :
    Instr.nop.mnemonic = .nop ∧ (Instr.nopAbsX1C 0x07FF).mnemonic = .nopU ∧ Instr.nopImpFA.mnemonic = .nopU := by decide

theorem witness_CombinedShiftAndLogical :
    ((Instr.sloZp 0x10).triple = (.slo, .memory (.zp 0x10)) ∧ (0x02 : Byte).toNat = 2 * (busy.mem.get 16).toNat % 256) ∧
    ((Instr.rlaZp 0x10).triple = (.rla, .memory (.zp 0x10)) ∧
      (0x02 : Byte).toNat = (2 * (busy.mem.get 16).toNat + busy.p.c.toNat) % 256) ∧
    ((Instr.sreZp 0x10).triple = (.sre, .memory (.zp 0x10)) ∧ (0x40 : Byte).toNat = (busy.mem.get 16).toNat / 2) := by decide

/-- The byte at 0x0010 is 0x81, A = 0x80, C = 0: RRA gives 0x40 and then A = 0xC1; ISB gives 0x82 and A = 0xFD; DCP gives
0x80. -/
theorem witness_CombinedArithmetic :
    ¬ busy.decimalRefused ∧
    ((Instr.rraZp 0x10).triple = (.rra, .memory (.zp 0x10)) ∧
      (0x40 : Byte).toNat = (busy.mem.get 16).toNat / 2 + 128 * busy.p.c.toNat ∧
      (0xC1 : Byte).toNat = (busy.a.toNat + (0x40 : Byte).toNat + ((busy.mem.get 16).getLsbD 0).toNat) % 256) ∧
    ((Instr.isbZp 0x10).triple = (.isb, .memory (.zp 0x10)) ∧ (0x82 : Byte).toNat = ((busy.mem.get 16).toNat + 1) % 256 ∧
      ((0xFD : Byte).toNat : Int) = ((busy.a.toNat : Int) - (0x82 : Byte).toNat - (1 - busy.p.c.toNat)) % 256) ∧
    ((Instr.dcpZp 0x10).triple = (.dcp, .memory (.zp 0x10)) ∧
      (0x80 : Byte).toNat = ((busy.mem.get 16).toNat + 255) % 256) := by decide

/-- MEM_SIZE = 512: the first address outside memory, direct and indexed. -/
theorem witness_OperandOutOfBoundsHalts :
    ((Instr.staAbs 0x0200).operand = .memory (.abs 0x0200) ∧ effAddr (.abs 0x0200) busy512 = .ok 0x0200 ∧
      mapAddr busy512.cfg 0x0200 = .error (.raise (.outOfBoundsAddress 0x0200))) ∧
    ((Instr.adcAbsX 0x0200).operand = .memory (.absX 0x0200) ∧ ¬ busy512.decimalRefused ∧
      effAddr (.absX 0x0200) busy512 = .ok 0x02FF ∧
      mapAddr busy512.cfg 0x02FF = .error (.raise (.outOfBoundsAddress 0x02FF))) :=
  ⟨⟨rfl, rfl, rfl⟩, rfl, by decide, rfl, rfl⟩

/-- An error of each kind, and its code in the table of R500. -/
theorem witness_RecordedErrorsFitTheirCodes :
    (∃ t e, step (start [0x02]) = .next t ∧ t.fault = some e ∧ errorCode e = 1) ∧
    (∃ t e, step (start [0xAD, 0x00]) = .next t ∧ t.fault = some e ∧ errorCode e = 2) ∧
    (∃ t e, step { start [0xAD, 0x00, 0x08] with cfg := cfg2K } = .next t ∧ t.fault = some e ∧ errorCode e = 3) :=
  ⟨⟨_, _, rfl, rfl, rfl⟩, ⟨_, _, rfl, rfl, rfl⟩, ⟨_, _, rfl, rfl, rfl⟩⟩

end Sys2Proof.Tests
end

section
/-! SUPPORT. What a step does in each case of the engine and of the decode phase, and what no step changes (R48, R70, R40). -/

namespace Sys2Proof.Machine

variable {s t : State}

/-! ## One equation for each case of a step -/

theorem step_of_halted (he : s.eng = .halted) : step s = haltedOutcome s := by
  simp [step, he]

theorem step_of_stopped {r : StopRecord} (he : s.eng = .ready) (hf : fetchInstr s = .stopped r) :
    step s = .next (s.haltOnStop r) := by
  simp [step, he, hf]

theorem step_of_failed {e : ErrorRecord} (he : s.eng = .ready) (hf : fetchInstr s = .failed e) :
    step s = .next (s.haltOnError e) := by
  simp [step, he, hf]

theorem step_of_instr {i : Instr} (he : s.eng = .ready) (hf : fetchInstr s = .instr i) : step s = exec i s := by
  simp [step, he, hf]

/-- Every step from Ready answers a next state. -/
theorem step_isNext_of_ready (he : s.eng = .ready) : ∃ t, step s = .next t := by
  cases hf : fetchInstr s with
  | stopped r => exact ⟨_, step_of_stopped he hf⟩
  | failed e => exact ⟨_, step_of_failed he hf⟩
  | instr i =>
    rw [step_of_instr he hf]
    exact exec_isNext i s

/-! ## What no step changes -/

theorem exec_keeps_inputs_and_flagB {i : Instr} (h : exec i s = .next t) :
    t.cfg = s.cfg ∧ t.code = s.code ∧ t.p.b = s.p.b := by
  rcases exec_cases h with q | ⟨e, rfl⟩ | rfl
  · exact ⟨q.cfg, q.code, q.flagB⟩
  · exact ⟨rfl, rfl, rfl⟩
  · exact ⟨rfl, rfl, rfl⟩

theorem step_keeps_inputs_and_flagB (h : step s = .next t) : t.cfg = s.cfg ∧ t.code = s.code ∧ t.p.b = s.p.b := by
  obtain ⟨_, ⟨r, _, rfl⟩ | ⟨e, _, rfl⟩ | ⟨i, _, hi⟩⟩ := step_inversion h
  · exact ⟨rfl, rfl, rfl⟩
  · exact ⟨rfl, rfl, rfl⟩
  · exact exec_keeps_inputs_and_flagB hi

end Sys2Proof.Machine
end

section
/-! SUPPORT. P.B is blind state: every operation commutes with replacing P.B (R40), so every execution and every step does.
A fetch, a pushed status byte and a branch condition do not read it. -/

namespace Sys2Proof.Machine

/-- The state with another P.B and nothing else changed. -/
def State.withB (s : State) (b : Bool) : State := { s with p := { s.p with b := b } }

/-- An outcome with another P.B in its next state. A fault and a refusal hold no flags. -/
def outcomeWithB (b : Bool) : StepOutcome → StepOutcome
  | .next t => .next (t.withB b)
  | .fault e => .fault e
  | .refused r => .refused r

/-- A rule is blind to P.B where, run from a state with another P.B, it gives the same result with that other P.B. -/
def Blind (rule : State → Staged State) : Prop :=
  ∀ (s : State) (b : Bool), rule (s.withB b) = (rule s).map (·.withB b)

variable {b : Bool} {s : State}

/-! ## Reads, stores and read-modify-writes -/

theorem effAddr_withB (m : MemMode) : effAddr m (s.withB b) = effAddr m s := by
  cases m <;> rfl

theorem readSource_withB (src : Source) : readSource src (s.withB b) = readSource src s := by
  cases src with
  | imm v => rfl
  | mem m => simp only [readSource, effAddr_withB]; rfl

theorem memWrite_withB (a : Addr) (v : Byte) : memWrite (s.withB b) a v = (memWrite s a v).map (·.withB b) := by
  show (mapAddr s.cfg a >>= _) = Except.map _ (mapAddr s.cfg a >>= _)
  cases mapAddr s.cfg a <;> rfl

theorem storeTo_blind {m : MemMode} {v : State → Byte} (hv : ∀ (s : State) (b : Bool), v (s.withB b) = v s) :
    Blind fun s => storeTo m (v s) s := by
  intro s b
  obtain ⟨ea, hea⟩ := effAddr_isOk m s
  simp only [storeTo, effAddr_withB, hea, hv, staged_bind_ok, memWrite_withB]

/-- The rules that read an operand and then write registers and flags. -/
theorem read_blind {src : Source} {f : State → Byte → State}
    (hf : ∀ (s : State) (b : Bool) (v : Byte), f (s.withB b) v = (f s v).withB b) :
    Blind fun s => readSource src s >>= fun v => pure (f s v) := by
  intro s b
  simp only [readSource_withB, hf]
  cases readSource src s <;> rfl

/-- The rules that modify memory and then write registers and flags. -/
theorem modify_blind {m : MemMode} {w : State → Byte → Byte} {f : State → Byte × State → State}
    (hw : ∀ (s : State) (b : Bool), w (s.withB b) = w s)
    (hf : ∀ (s : State) (b : Bool) (v : Byte) (u : State), f (s.withB b) (v, u.withB b) = (f s (v, u)).withB b) :
    Blind fun s => modifyAt m (w s) s >>= fun p => pure (f s p) := by
  intro s b
  obtain ⟨ea, hea⟩ := effAddr_isOk m s
  have heaB : effAddr m (s.withB b) = .ok ea := (effAddr_withB m).trans hea
  cases hk : mapAddr s.cfg ea with
  | ok k =>
    simp only [hw, modifyAt_of_map hea hk, modifyAt_of_map heaB hk]
    exact congrArg Except.ok (hf s b (s.mem.get k) (s.withMem (s.mem.set k (w s (s.mem.get k)))))
  | error e =>
    obtain ⟨_, _, hmod⟩ := operand_error hea hk
    obtain ⟨_, _, hmodB⟩ := operand_error heaB hk
    simp only [hmod, hmodB]
    rfl

/-- The rules that check for the decimal refusal first. The check reads P.D and the configuration. -/
theorem decimalCheck_blind {f : State → Staged State} (hf : Blind f) :
    Blind fun s => decimalCheck s >>= fun _ => f s := by
  intro s b
  have hcheck : decimalCheck (s.withB b) = decimalCheck s := rfl
  simp only [hcheck, hf s b]
  cases decimalCheck s <;> rfl

/-! ## Rules by the shape of their operand -/

theorem onSource_blind {f : Source → State → Staged State} (hf : ∀ src, Blind (f src)) (o : Operand) :
    Blind (onSource f o) := by
  cases o
  case immediate v => exact hf (.imm v)
  case memory m => exact hf (.mem m)
  all_goals exact fun _ _ => rfl

theorem onMemory_blind {f : MemMode → State → Staged State} (hf : ∀ m, Blind (f m)) (o : Operand) :
    Blind (onMemory f o) := by
  cases o
  case memory m => exact hf m
  all_goals exact fun _ _ => rfl

theorem onTarget_blind (op : Byte → Bool → ShiftResult) (o : Operand) : Blind (onTarget (shiftTarget op) o) := by
  cases o
  case memory m => exact modify_blind (fun _ _ => rfl) fun _ _ _ _ => rfl
  all_goals exact fun _ _ => rfl

theorem onRelative_blind (cond : Bool) (o : Operand) : Blind (onRelative (branch cond) o) := by
  intro s b
  cases o
  case relative off => cases cond <;> rfl
  all_goals rfl

theorem jumpThrough_blind (ptr : Addr) : Blind (jumpThrough ptr) := by
  intro s b
  have hread : read16SamePage (s.withB b) ptr = read16SamePage s ptr := rfl
  simp only [jumpThrough, hread]
  cases read16SamePage s ptr <;> rfl

theorem onJump_blind (o : Operand) : Blind (onJump o) := by
  intro s b
  unfold onJump
  split
  · rfl
  · exact jumpThrough_blind _ s b
  · rfl

theorem onCall_blind (o : Operand) : Blind (onCall o) := by
  intro s b
  unfold onCall
  split
  · simp only [callSub, pushAddr_eq, staged_bind_ok]
    rfl
  · rfl

/-- The pushed status byte has bit 4 set whatever P.B is, so the pushed state and its vector do not depend on P.B. -/
theorem takeTrap_blind (ret : Addr) : Blind (takeTrap ret) := by
  intro s b
  have hpushed : trapPushed ret (s.withB b) = (trapPushed ret s).withB b := rfl
  have hread : ∀ a, memRead ((trapPushed ret s).withB b) a = memRead (trapPushed ret s) a := fun _ => rfl
  simp only [takeTrap_eq, hpushed, hread]
  cases memRead (trapPushed ret s) 0xFFFE with
  | error e => rfl
  | ok lo => cases memRead (trapPushed ret s) 0xFFFF <;> rfl

/-- The condition of a branch and the return address of BRK do not depend on P.B. -/
theorem ruleOf_withB (m : Mnemonic) (o : Operand) (s₀ : State) : ruleOf m o (s₀.withB b) = ruleOf m o s₀ := by
  cases m <;> rfl

/-- Every rule is blind to P.B. -/
theorem ruleOf_blind (m : Mnemonic) (o : Operand) (s₀ : State) : Blind (ruleOf m o s₀) := by
  cases m
  case lda | ldx | ldy | cmp | cpx | cpy | and | ora | eor =>
    refine onSource_blind (fun _ => ?_) o
    exact read_blind fun _ _ _ => rfl
  case adc | sbc | sbcU =>
    refine onSource_blind (fun _ => ?_) o
    exact decimalCheck_blind (read_blind fun _ _ _ => rfl)
  case bit | lax => exact onMemory_blind (fun _ => read_blind fun _ _ _ => rfl) o
  case sta | stx | sty | sax => exact onMemory_blind (fun _ => storeTo_blind fun _ _ => rfl) o
  case inc | dec | slo | rla | sre | dcp =>
    exact onMemory_blind (fun _ => modify_blind (fun _ _ => rfl) fun _ _ _ _ => rfl) o
  case rra | isb =>
    exact onMemory_blind (fun _ => decimalCheck_blind (modify_blind (fun _ _ => rfl) fun _ _ _ _ => rfl)) o
  case asl | lsr | rol | ror => exact onTarget_blind _ o
  case bpl | bmi | bvc | bvs | bcc | bcs | bne | beq => exact onRelative_blind _ o
  case jmp => exact onJump_blind o
  case jsr => exact onCall_blind o
  case brk => exact takeTrap_blind _
  case rts =>
    intro s b
    simp only [ruleOf, returnFromSub, pullAddr_eq, staged_bind_ok]
    rfl
  case rti =>
    intro s b
    simp only [ruleOf, returnFromTrap_eq]
    rfl
  case pha | php | pla | plp =>
    intro s b
    simp only [ruleOf, pushA, pushP, pullA, pullP, push_eq, pull_eq, staged_bind_ok]
    rfl
  all_goals exact fun _ _ => rfl

/-! ## Executions and steps -/

theorem execute_withB {rule : State → Staged State} (h : Blind rule) (len : Nat) :
    execute len rule (s.withB b) = outcomeWithB b (execute len rule s) := by
  have hstaged : rule ((s.withB b).withPC ((s.withB b).pc + BitVec.ofNat 16 len)) =
      (rule (s.withPC (s.pc + BitVec.ofNat 16 len))).map (·.withB b) :=
    h (s.withPC (s.pc + BitVec.ofNat 16 len)) b
  unfold execute
  rw [hstaged]
  cases rule (s.withPC (s.pc + BitVec.ofNat 16 len)) with
  | ok t => rfl
  | error e => cases e <;> rfl

/-- An execution from a state with another P.B is the same execution with that other P.B. -/
theorem exec_withB (i : Instr) : exec i (s.withB b) = outcomeWithB b (exec i s) := by
  rw [exec_eq_ruleOf, exec_eq_ruleOf, ruleOf_withB]
  exact execute_withB (ruleOf_blind _ _ _) _

/-- The decode phase reads PC, the configuration, CODE and memory. -/
theorem fetchInstr_withB : fetchInstr (s.withB b) = fetchInstr s := rfl

theorem haltedOutcome_withB : haltedOutcome (s.withB b) = outcomeWithB b (haltedOutcome s) := by
  show haltedOutcome s = _
  cases h : haltedOutcome s with
  | next t => exact absurd h (haltedOutcome_ne_next s t)
  | fault e => rfl
  | refused r => rfl

/-- A step from a state with another P.B is the same step with that other P.B. -/
theorem step_withB : step (s.withB b) = outcomeWithB b (step s) := by
  cases he : s.eng with
  | halted => rw [step_of_halted he, step_of_halted (s := s.withB b) he, haltedOutcome_withB]
  | ready =>
    have heB : (s.withB b).eng = .ready := he
    cases hf : fetchInstr s with
    | stopped r => rw [step_of_stopped he hf, step_of_stopped heB hf]; rfl
    | failed e => rw [step_of_failed he hf, step_of_failed heB hf]; rfl
    | instr i => rw [step_of_instr he hf, step_of_instr heB hf, exec_withB]

end Sys2Proof.Machine
end

section
/-! SUPPORT. The frame of every rule (R31, R34, R41): a table of the registers and flags that an instruction may write, and the
proof that its rule writes no others. Memory and P.B have their own frame (`Quiet`). -/

namespace Sys2Proof.Machine

/-- The registers and flags that instructions write. Z and N stand together: every rule writes both or neither (R38). -/
inductive Reg where
  | a | x | y | sp | pc | c | zn | v | i | d
  deriving DecidableEq

/-- The registers and flags that an instruction may write beyond the advance of PC, from its own rule (R200 to R410). -/
def mayWrite : Mnemonic → Operand → List Reg
  | .lda, _ | .and, _ | .ora, _ | .eor, _ | .txa, _ | .tya, _ => [.a, .zn]
  | .ldx, _ | .tax, _ | .tsx, _ | .inx, _ | .dex, _ => [.x, .zn]
  | .ldy, _ | .tay, _ | .iny, _ | .dey, _ => [.y, .zn]
  | .lax, _ => [.a, .x, .zn]
  | .sta, _ | .stx, _ | .sty, _ | .sax, _ | .nop, _ | .nopU, _ => []
  | .inc, _ | .dec, _ => [.zn]
  | .cmp, _ | .cpx, _ | .cpy, _ | .dcp, _ => [.c, .zn]
  | .bit, _ => [.zn, .v]
  | .adc, _ | .sbc, _ | .sbcU, _ | .rra, _ | .isb, _ => [.a, .c, .zn, .v]
  | .asl, o | .lsr, o | .rol, o | .ror, o => (if o = .accumulator then [.a] else []) ++ [.c, .zn]
  | .slo, _ | .rla, _ | .sre, _ => [.a, .c, .zn]
  | .bpl, _ | .bmi, _ | .bvc, _ | .bvs, _ | .bcc, _ | .bcs, _ | .bne, _ | .beq, _ | .jmp, _ => [.pc]
  | .jsr, _ | .rts, _ => [.sp, .pc]
  | .brk, _ => [.sp, .pc, .i]
  | .rti, _ => [.sp, .pc, .c, .zn, .v, .i, .d]
  | .pha, _ | .php, _ | .txs, _ => [.sp]
  | .pla, _ => [.a, .sp, .zn]
  | .plp, _ => [.sp, .c, .zn, .v, .i, .d]
  | .clc, _ | .sec, _ => [.c]
  | .cli, _ | .sei, _ => [.i]
  | .cld, _ | .sed, _ => [.d]
  | .clv, _ => [.v]

/-- Every register and flag outside the list is as it was. -/
structure Frame (ws : List Reg) (s t : State) : Prop where
  a : .a ∉ ws → t.a = s.a
  x : .x ∉ ws → t.x = s.x
  y : .y ∉ ws → t.y = s.y
  sp : .sp ∉ ws → t.sp = s.sp
  pc : .pc ∉ ws → t.pc = s.pc
  c : .c ∉ ws → t.p.c = s.p.c
  z : .zn ∉ ws → t.p.z = s.p.z
  n : .zn ∉ ws → t.p.n = s.p.n
  v : .v ∉ ws → t.p.v = s.p.v
  i : .i ∉ ws → t.p.i = s.p.i
  d : .d ∉ ws → t.p.d = s.p.d

variable {ws : List Reg} {s t : State}

theorem Frame.refl (ws : List Reg) (s : State) : Frame ws s s := by
  constructor <;> exact fun _ => rfl

/-- A frame against the staged state is a frame against the start, but for PC. -/
theorem Frame.of_withPC {w : Addr} (h : Frame ws (s.withPC w) t) : Frame (.pc :: ws) s t where
  a hn := h.a (List.not_mem_of_not_mem_cons hn)
  x hn := h.x (List.not_mem_of_not_mem_cons hn)
  y hn := h.y (List.not_mem_of_not_mem_cons hn)
  sp hn := h.sp (List.not_mem_of_not_mem_cons hn)
  pc hn := absurd List.mem_cons_self hn
  c hn := h.c (List.not_mem_of_not_mem_cons hn)
  z hn := h.z (List.not_mem_of_not_mem_cons hn)
  n hn := h.n (List.not_mem_of_not_mem_cons hn)
  v hn := h.v (List.not_mem_of_not_mem_cons hn)
  i hn := h.i (List.not_mem_of_not_mem_cons hn)
  d hn := h.d (List.not_mem_of_not_mem_cons hn)

/-! ## Rules by the shape of their operand -/

theorem onSource_frame {f : Source → State → Staged State} {o : Operand} (hf : ∀ src t, f src s = .ok t → Frame ws s t)
    (h : onSource f o s = .ok t) : Frame ws s t := by
  unfold onSource at h
  split at h
  · exact hf _ _ h
  · exact hf _ _ h
  · cases h; exact .refl ws s

theorem onMemory_frame {f : MemMode → State → Staged State} {o : Operand} (hf : ∀ m t, f m s = .ok t → Frame ws s t)
    (h : onMemory f o s = .ok t) : Frame ws s t := by
  unfold onMemory at h
  split at h
  · exact hf _ _ h
  · cases h; exact .refl ws s

theorem read_frame {src : Source} {f : Byte → State} (hf : ∀ v, Frame ws s (f v))
    (h : (readSource src s >>= fun v => (pure (f v) : Staged State)) = .ok t) : Frame ws s t := by
  obtain ⟨v, rfl⟩ := read_bind_eq_ok h
  exact hf v

theorem modify_frame {m : MemMode} {g : Byte → Byte} {f : Byte × State → State}
    (hf : ∀ (v : Byte) (mem : Memory), Frame ws s (f (v, s.withMem mem)))
    (h : (modifyAt m g s >>= fun p => (pure (f p) : Staged State)) = .ok t) : Frame ws s t := by
  obtain ⟨ea, j, _, _, rfl⟩ := modify_bind_eq_ok h
  exact hf _ _

theorem storeTo_frame {m : MemMode} {v : Byte} (h : storeTo m v s = .ok t) : Frame ws s t := by
  obtain ⟨ea, k, _, _, rfl⟩ := storeTo_eq_ok h
  constructor <;> exact fun _ => rfl

theorem accumulate_frame (s : State) (m : Byte) : Frame [.a, .c, .zn, .v] s (accumulate s m) := by
  constructor <;> simp [accumulate]

/-- A shift writes A only in its accumulator form. -/
theorem onTarget_frame {op : Byte → Bool → ShiftResult} {o : Operand} (h : onTarget (shiftTarget op) o s = .ok t) :
    Frame ((if o = .accumulator then [.a] else []) ++ [.c, .zn]) s t := by
  cases o
  case accumulator =>
    cases h
    constructor <;> simp
  case memory m =>
    refine modify_frame (fun v mem => ?_) h
    constructor <;> simp
  all_goals
    cases h
    exact .refl _ s

theorem branch_frame {cond : Bool} {off : Byte} (h : branch cond off s = .ok t) : Frame [.pc] s t := by
  cases h
  cases cond <;> constructor <;> simp

theorem onRelative_frame {cond : Bool} {o : Operand} (h : onRelative (branch cond) o s = .ok t) : Frame [.pc] s t := by
  unfold onRelative at h
  split at h
  · exact branch_frame h
  · cases h; exact .refl _ s

theorem onJump_frame {o : Operand} (h : onJump o s = .ok t) : Frame [.pc] s t := by
  unfold onJump at h
  split at h
  · cases h
    constructor <;> simp
  · obtain ⟨w, _, hw⟩ := staged_bind_eq_ok h
    cases hw
    constructor <;> simp
  · cases h; exact .refl _ s

theorem onCall_frame {o : Operand} (h : onCall o s = .ok t) : Frame [.sp, .pc] s t := by
  unfold onCall at h
  split at h
  · simp only [callSub, pushAddr_eq, staged_bind_ok] at h
    cases h
    constructor <;> simp
  · cases h; exact .refl _ s

theorem takeTrap_frame {ret : Addr} (h : takeTrap ret s = .ok t) : Frame [.sp, .pc, .i] s t := by
  rw [takeTrap_eq] at h
  obtain ⟨lo, _, h⟩ := staged_bind_eq_ok h
  obtain ⟨hi, _, h⟩ := staged_bind_eq_ok h
  cases h
  constructor <;> simp [trapPushed]

/-! ## Every rule -/

/-- A rule writes only the registers and flags that `mayWrite` lists. -/
theorem ruleOf_frame {m : Mnemonic} {o : Operand} {s₀ : State} (h : ruleOf m o s₀ s = .ok t) :
    Frame (mayWrite m o) s t := by
  have ofOk : ∀ {u ws}, Except.ok (ε := Abort) u = .ok t → Frame ws s u → Frame ws s t := fun hu hf => by
    cases hu
    exact hf
  cases m
  case lda | ldx | ldy | cmp | cpx | cpy | and | ora | eor =>
    refine onSource_frame (fun _ _ hr => read_frame (fun v => ?_) hr) h
    constructor <;> simp [mayWrite, compareFlags]
  case adc | sbc | sbcU =>
    refine onSource_frame (fun _ _ hr => read_frame (fun v => ?_) (decimalCheck_bind_ok hr)) h
    exact accumulate_frame s _
  case bit | lax =>
    refine onMemory_frame (fun m _ hr => read_frame (src := .mem m) (fun v => ?_) hr) h
    constructor <;> simp [mayWrite, bitFlags]
  case sta => exact onMemory_frame (f := storeA) (fun _ _ hr => storeTo_frame hr) h
  case stx => exact onMemory_frame (f := storeX) (fun _ _ hr => storeTo_frame hr) h
  case sty => exact onMemory_frame (f := storeY) (fun _ _ hr => storeTo_frame hr) h
  case sax => exact onMemory_frame (f := storeAandX) (fun _ _ hr => storeTo_frame hr) h
  case inc | dec | slo | rla | sre | dcp =>
    refine onMemory_frame (fun _ _ hr => modify_frame (fun v mem => ?_) hr) h
    constructor <;> simp [mayWrite, compareFlags]
  case rra | isb =>
    refine onMemory_frame (fun _ _ hr => modify_frame (fun v mem => ?_) (decimalCheck_bind_ok hr)) h
    constructor <;> simp [mayWrite, accumulate]
  case asl | lsr | rol | ror => exact onTarget_frame h
  case bpl | bmi | bvc | bvs | bcc | bcs | bne | beq => exact onRelative_frame h
  case jmp => exact onJump_frame h
  case jsr => exact onCall_frame h
  case brk => exact takeTrap_frame h
  case rts =>
    simp only [ruleOf, returnFromSub, pullAddr_eq, staged_bind_ok] at h
    refine ofOk h ?_
    constructor <;> simp [mayWrite]
  case rti =>
    simp only [ruleOf, returnFromTrap_eq] at h
    refine ofOk h ?_
    constructor <;> simp [mayWrite]
  case pha | php | pla | plp =>
    simp only [ruleOf, pushA, pushP, pullA, pullP, push_eq, pull_eq, staged_bind_ok] at h
    refine ofOk h ?_
    constructor <;> simp [mayWrite]
  -- The one-byte register, transfer, flag and no-operation instructions.
  all_goals
    refine ofOk h ?_
    constructor <;> simp [mayWrite]

/-! ## The table by register and flag (R31, R34, R41) -/

theorem mem_mayWrite_a {m : Mnemonic} {o : Operand} : .a ∈ mayWrite m o ↔
    m ∈ ([.lda, .pla, .txa, .tya, .adc, .sbc, .sbcU, .and, .ora, .eor, .lax, .slo, .rla, .sre, .rra,
      .isb] : List Mnemonic) ∨
    (m ∈ ([.asl, .lsr, .rol, .ror] : List Mnemonic) ∧ o = .accumulator) := by
  cases m <;> simp [mayWrite]

theorem mem_mayWrite_x {m : Mnemonic} {o : Operand} : .x ∈ mayWrite m o ↔
    m ∈ ([.ldx, .tax, .tsx, .inx, .dex, .lax] : List Mnemonic) := by
  cases m <;> simp [mayWrite]

theorem mem_mayWrite_y {m : Mnemonic} {o : Operand} : .y ∈ mayWrite m o ↔
    m ∈ ([.ldy, .tay, .iny, .dey] : List Mnemonic) := by
  cases m <;> simp [mayWrite]

theorem mem_mayWrite_sp {m : Mnemonic} {o : Operand} : .sp ∈ mayWrite m o ↔
    m ∈ ([.txs, .pha, .php, .pla, .plp, .jsr, .rts, .brk, .rti] : List Mnemonic) := by
  cases m <;> simp [mayWrite]

theorem mem_mayWrite_pc {m : Mnemonic} {o : Operand} : .pc ∈ mayWrite m o ↔
    m ∈ ([.bpl, .bmi, .bvc, .bvs, .bcc, .bcs, .bne, .beq, .jmp, .jsr, .rts, .brk, .rti] : List Mnemonic) := by
  cases m <;> simp [mayWrite]

theorem mem_mayWrite_c {m : Mnemonic} {o : Operand} : .c ∈ mayWrite m o ↔
    m ∈ ([.adc, .sbc, .sbcU, .cmp, .cpx, .cpy, .asl, .lsr, .rol, .ror, .clc, .sec, .plp, .rti, .slo, .rla, .sre, .rra, .dcp,
      .isb] : List Mnemonic) := by
  cases m <;> simp [mayWrite]

theorem mem_mayWrite_zn {m : Mnemonic} {o : Operand} : .zn ∈ mayWrite m o ↔
    m ∈ ([.lda, .ldx, .ldy, .tax, .tay, .txa, .tya, .tsx, .pla, .inc, .dec, .inx, .iny, .dex, .dey, .adc, .sbc, .sbcU, .and,
      .ora, .eor, .cmp, .cpx, .cpy, .bit, .asl, .lsr, .rol, .ror, .plp, .rti, .lax, .slo, .rla, .sre, .rra, .dcp, .isb] :
      List Mnemonic) := by
  cases m <;> simp [mayWrite]

theorem mem_mayWrite_v {m : Mnemonic} {o : Operand} : .v ∈ mayWrite m o ↔
    m ∈ ([.adc, .sbc, .sbcU, .bit, .clv, .plp, .rti, .rra, .isb] : List Mnemonic) := by
  cases m <;> simp [mayWrite]

theorem mem_mayWrite_i {m : Mnemonic} {o : Operand} : .i ∈ mayWrite m o ↔
    m ∈ ([.cli, .sei, .brk, .plp, .rti] : List Mnemonic) := by
  cases m <;> simp [mayWrite]

theorem mem_mayWrite_d {m : Mnemonic} {o : Operand} : .d ∈ mayWrite m o ↔
    m ∈ ([.cld, .sed, .plp, .rti] : List Mnemonic) := by
  cases m <;> simp [mayWrite]

/-! ## Every execution -/

/-- An execution that leaves the engine Ready is its rule run on the staged state. -/
theorem exec_completed {i : Instr} (h : exec i s = .next t) (ht : t.eng = .ready) :
    ruleOf i.mnemonic i.operand s (s.withPC (nextPC s i)) = .ok t := by
  rw [exec_eq_ruleOf] at h
  rcases execute_cases h with hok | ⟨e, _, rfl⟩ | ⟨_, rfl⟩
  · exact hok
  · cases ht
  · cases ht

/-- An execution writes PC and what `mayWrite` lists; one that halts writes none of them. -/
theorem exec_frame {i : Instr} (h : exec i s = .next t) : Frame (.pc :: mayWrite i.mnemonic i.operand) s t := by
  rw [exec_eq_ruleOf] at h
  rcases execute_cases h with hok | ⟨e, _, rfl⟩ | ⟨_, rfl⟩
  · exact (ruleOf_frame hok).of_withPC
  · constructor <;> exact fun _ => rfl
  · constructor <;> exact fun _ => rfl

end Sys2Proof.Machine
end

section
/-! SUPPORT. The statements on the state (R31, R34, R39 to R41, R45, R48), from the lemmas above. -/

namespace Sys2Proof.Machine

/-! ## Steps -/

/-- Settles O5: the first clause is P.B's place in the frame of a step; the other three are `step_withB` at each outcome. -/
theorem breakFlagIsKeptAndUnobservable : Obligations.BreakFlagIsKeptAndUnobservable := by
  intro s b
  have hstep : step { s with p := { s.p with b := b } } = outcomeWithB b (step s) := step_withB
  refine ⟨fun t h => ?_, fun t h => ?_, fun e h => ?_, fun r h => ?_⟩
  · obtain ⟨_, _, hb⟩ := step_keeps_inputs_and_flagB h
    exact hb
  all_goals
    rw [hstep, h]
    rfl

/-- Settles O4: the configuration and the stream are in the frame of every step. -/
theorem stepKeepsSessionInputs : Obligations.StepKeepsSessionInputs := by
  intro s t h
  obtain ⟨hcfg, hcode, _⟩ := step_keeps_inputs_and_flagB h
  exact ⟨hcfg, hcode⟩

/-- Settles O7: from Halted by `step_inversion`, from Ready because each end of the decode phase gives a next state. -/
theorem stepAnswersNextExactlyWhenReady : Obligations.StepAnswersNextExactlyWhenReady :=
  fun _ => ⟨fun ⟨_, h⟩ => (step_inversion h).1, step_isNext_of_ready⟩

/-! ## Registers and flags -/

/-- Where a value changed that the frame keeps unless `r` may be written, the table lists `r`. -/
theorem mem_mayWrite_of_changed {m : Mnemonic} {o : Operand} {r : Reg} {α : Type} {v w : α} (hr : r ≠ .pc)
    (hf : r ∉ .pc :: mayWrite m o → v = w) (h : v ≠ w) : r ∈ mayWrite m o := by
  by_contra hn
  exact h (hf (by simp [hr, hn]))

/-- Settles O25: the frame of an execution, with the table read by register. -/
theorem registersChangeOnlyWhereListed : Obligations.RegistersChangeOnlyWhereListed := by
  intro i s t h
  have hf := exec_frame h
  refine ⟨fun ha => ?_, fun hx => ?_, fun hy => ?_, fun hsp => ?_⟩
  · exact mem_mayWrite_a.mp (mem_mayWrite_of_changed (by decide) hf.a ha)
  · exact mem_mayWrite_x.mp (mem_mayWrite_of_changed (by decide) hf.x hx)
  · exact mem_mayWrite_y.mp (mem_mayWrite_of_changed (by decide) hf.y hy)
  · exact mem_mayWrite_sp.mp (mem_mayWrite_of_changed (by decide) hf.sp hsp)

/-- Settles O26: the frame of an execution, with the table read by flag. P.B is in the frame of every execution. -/
theorem flagsChangeOnlyWhereListed : Obligations.FlagsChangeOnlyWhereListed := by
  intro i s t h
  have hf := exec_frame h
  obtain ⟨_, _, hb⟩ := exec_keeps_inputs_and_flagB h
  refine ⟨fun hc => ?_, fun hzn => ?_, fun hv => ?_, fun hi => ?_, fun hd => ?_, hb⟩
  · exact mem_mayWrite_c.mp (mem_mayWrite_of_changed (by decide) hf.c hc)
  · rcases hzn with hz | hn
    · exact mem_mayWrite_zn.mp (mem_mayWrite_of_changed (by decide) hf.z hz)
    · exact mem_mayWrite_zn.mp (mem_mayWrite_of_changed (by decide) hf.n hn)
  · exact mem_mayWrite_v.mp (mem_mayWrite_of_changed (by decide) hf.v hv)
  · exact mem_mayWrite_i.mp (mem_mayWrite_of_changed (by decide) hf.i hi)
  · exact mem_mayWrite_d.mp (mem_mayWrite_of_changed (by decide) hf.d hd)

/-! ## The next PC -/

theorem operand_bytes_length (o : Operand) : o.bytes.length + 1 = o.length := by
  cases o
  case memory m => cases m <;> rfl
  all_goals rfl

/-- The encoding of an instruction has the length of its mode (R101). -/
theorem encode_length (i : Instr) : (encode i).length = i.length := operand_bytes_length i.operand

theorem nextPC_toNat (s : State) (i : Instr) : (nextPC s i).toNat = (s.pc.toNat + i.length) % 65536 := by
  simp [nextPC, BitVec.toNat_add]

/-- A completed instruction whose rule does not write PC leaves it at `next`. -/
theorem exec_pc_of_completed {i : Instr} {s t : State} (h : exec i s = .next t) (ht : t.eng = .ready)
    (hpc : .pc ∉ mayWrite i.mnemonic i.operand) : t.pc = nextPC s i :=
  (ruleOf_frame (exec_completed h ht)).pc hpc

/-- Settles O30: no rule but those of the transfers writes PC, which the execute phase has staged at `next`. -/
theorem sequentialInstructionsAdvanceByLength : Obligations.SequentialInstructionsAdvanceByLength := by
  intro i s t h _ ht hm
  rw [exec_pc_of_completed h ht (mt mem_mayWrite_pc.mp hm), nextPC_toNat, encode_length]

/-! ## The packed status byte -/

/-- Settles O23: a bit of the packed byte is the bit of the one-bit piece it falls in. -/
theorem packedStatusLayout : Obligations.PackedStatusLayout := by
  intro p b v
  refine ⟨?_, rfl⟩
  simp only [packP, BitVec.getLsbD_append, BitVec.getLsbD_ofBool]
  simp

end Sys2Proof.Machine
end

section
/-! SUPPORT. Map's two policies, what a read and a fetch depend on, and that every step keeps the invariant of the machine (R61,
R64, R70, R505 to R508). -/

namespace Sys2Proof.Machine

variable {s t : State}

/-! ## Map -/

/-- Under OOB_POLICY = wrap every address has its residue as index, one below MEM_SIZE included. -/
theorem mapAddr_of_wrap {cfg : Config} (hp : cfg.oobPolicy = .wrap) (a : Addr) :
    mapAddr cfg a = .ok (a.toNat % cfg.memSize.bytes) := by
  by_cases h : a.toNat < cfg.memSize.bytes
  · rw [mapAddr_of_lt h, Nat.mod_eq_of_lt h]
  · simp [mapAddr, h, hp]

theorem mapAddr_of_error {cfg : Config} {a : Addr} (hp : cfg.oobPolicy = .error) (h : cfg.memSize.bytes ≤ a.toNat) :
    mapAddr cfg a = .error (.raise (.outOfBoundsAddress a)) := by
  simp [mapAddr, Nat.not_lt.mpr h, hp]

/-! ## Reads after a change of memory -/

/-- A read is kept where the byte at the index of its address is kept. -/
theorem memRead_congr_get {a : Addr} (hc : t.cfg = s.cfg)
    (h : ∀ k, mapAddr s.cfg a = .ok k → t.mem.get k = s.mem.get k) : memRead t a = memRead s a := by
  cases hk : mapAddr s.cfg a with
  | ok k => rw [memRead_of_map hk, memRead_of_map (hc ▸ hk), h k hk]
  | error e => rw [memRead_error.mpr hk, memRead_error.mpr (hc ▸ hk)]

/-- A read after a write, by the indices of the two addresses (R65, R66). -/
theorem memRead_of_memWrite {a b : Addr} {v : Byte} {i j : Nat} (hs : s.mem.wf) (h : memWrite s a v = .ok t)
    (ha : mapAddr s.cfg a = .ok i) (hb : mapAddr s.cfg b = .ok j) :
    memRead t b = .ok (if i = j then v else s.mem.get j) := by
  rw [memWrite_of_map ha] at h
  cases h
  rw [memRead_of_map (s := s.withMem (s.mem.set i v)) hb, State.withMem_mem, Memory.get_set hs]

/-! ## What a fetch depends on -/

theorem fetchByte_of_memory (h : s.cfg.fetchSource = .memory) (a : Addr) : fetchByte s a = memRead s a := by
  simp [fetchByte, h]

theorem fetchByte_of_stream (h : s.cfg.fetchSource = .stream) {a : Addr} (ha : a.toNat < s.code.length) :
    fetchByte s a = .ok s.code[a.toNat] := by
  simp [fetchByte, h, ha]

/-- In stream mode a fetch does not see data memory, not even beyond CODE_LEN. -/
theorem fetchByte_withMem (h : s.cfg.fetchSource = .stream) (m : Memory) (a : Addr) :
    fetchByte (s.withMem m) a = fetchByte s a := by
  simp [fetchByte, h]

theorem beyondCode_of_memory (h : s.cfg.fetchSource = .memory) (n : Nat) : beyondCode s n = false := by
  simp [beyondCode, h]

/-- The decode phase depends on the configuration, PC, where the code ends and what each fetch gives. -/
theorem fetchInstr_congr (hc : t.cfg = s.cfg) (hpc : t.pc = s.pc) (hb : ∀ n, beyondCode t n = beyondCode s n)
    (hf : ∀ a, fetchByte t a = fetchByte s a) : fetchInstr t = fetchInstr s := by
  have hfail : fetchFailure t = fetchFailure s := by
    funext e
    cases e <;> simp [fetchFailure, hpc]
  have hops : fetchOperands t = fetchOperands s := by
    funext cell
    cases cell <;> simp only [fetchOperands, hpc, hf, hfail]
  simp only [fetchInstr, hc, hpc, hb, hf, hfail, hops]

/-! ## The invariant -/

theorem State.records_eq_zero : s.records = 0 ↔ s.fault = none ∧ s.stop = none ∧ s.refused = false := by
  cases hf : s.fault <;> cases hs : s.stop <;> cases hr : s.refused <;> simp [State.records, hf, hs, hr]

/-- A quiet change keeps the invariant: memory changes by writes at indices of M, the records not at all. -/
theorem Quiet.wf (q : Quiet s t) (h : s.wf) : t.wf := by
  obtain ⟨hmem, hkeys, hcode, hrec⟩ := h
  obtain ⟨ws, hws, hm⟩ := q.mem
  refine ⟨hm ▸ writes_wf hmem ws, ?_, ?_, ?_⟩
  · simpa only [State.memInRange, hm, q.cfg] using writes_keys hkeys hws
  · simpa only [State.codeInRange, q.code] using hcode
  · simpa only [State.recordsAgree, State.records, q.eng, q.fault, q.stop, q.refused] using hrec

/-- A Halted state that differs from a well-formed one in the engine and its records alone is well formed when it holds
exactly one record. -/
theorem State.wf_of_halted (h : s.wf) (hmem : t.mem = s.mem) (hcfg : t.cfg = s.cfg) (hcode : t.code = s.code)
    (he : t.eng = .halted) (hr : t.records = 1) : t.wf := by
  obtain ⟨hwf, hkeys, hlen, _⟩ := h
  refine ⟨hmem ▸ hwf, ?_, ?_, fun hready => ?_, fun _ => hr⟩
  · simpa only [State.memInRange, hmem, hcfg] using hkeys
  · simpa only [State.codeInRange, hcode] using hlen
  · cases he.symm.trans hready

/-- A Ready state that is well formed has recorded nothing. -/
theorem State.no_records_of_ready (h : s.wf) (he : s.eng = .ready) :
    s.fault = none ∧ s.stop = none ∧ s.refused = false := by
  obtain ⟨_, _, _, hready, _⟩ := h
  exact State.records_eq_zero.mp (hready he)

theorem State.haltOnError_wf (h : s.wf) (he : s.eng = .ready) (e : ErrorRecord) : (s.haltOnError e).wf := by
  obtain ⟨_, hs, hr⟩ := State.no_records_of_ready h he
  exact State.wf_of_halted h rfl rfl rfl rfl (by simp [State.records, hs, hr])

theorem State.haltOnStop_wf (h : s.wf) (he : s.eng = .ready) (r : StopRecord) : (s.haltOnStop r).wf := by
  obtain ⟨hf, _, hr⟩ := State.no_records_of_ready h he
  exact State.wf_of_halted h rfl rfl rfl rfl (by simp [State.records, hf, hr])

theorem State.haltOnRefusal_wf (h : s.wf) (he : s.eng = .ready) : s.haltOnRefusal.wf := by
  obtain ⟨hf, hs, _⟩ := State.no_records_of_ready h he
  exact State.wf_of_halted h rfl rfl rfl rfl (by simp [State.records, hf, hs])

theorem exec_keeps_wf {i : Instr} (h : s.wf) (he : s.eng = .ready) (hx : exec i s = .next t) : t.wf := by
  rcases exec_cases hx with q | ⟨e, rfl⟩ | rfl
  · exact q.wf h
  · exact State.haltOnError_wf h he e
  · exact State.haltOnRefusal_wf h he

theorem step_keeps_wf (h : s.wf) (hstep : step s = .next t) : t.wf := by
  obtain ⟨he, ⟨r, _, rfl⟩ | ⟨e, _, rfl⟩ | ⟨i, _, hx⟩⟩ := step_inversion hstep
  · exact State.haltOnStop_wf h he r
  · exact State.haltOnError_wf h he e
  · exact exec_keeps_wf h he hx

end Sys2Proof.Machine
end

section
/-! SUPPORT. The frame of memory (R66, R72, R370): which indices of M an instruction may write, and the proof that its rule keeps
the byte at every other index. -/

namespace Sys2Proof.Machine

/-- The mnemonics that write their memory operand: the stores and the read-modify-writes (R72). A shift or rotate has a memory
operand only in its memory forms. -/
def operandStores : List Mnemonic :=
  [.sta, .stx, .sty, .sax, .inc, .dec, .asl, .lsr, .rol, .ror, .slo, .rla, .sre, .rra, .dcp, .isb]

/-- How many bytes an instruction pushes (R370). -/
def pushCount : Mnemonic → Nat
  | .pha | .php => 1
  | .jsr => 2
  | .brk => 3
  | _ => 0

/-- The instruction may write the byte at index k of M: it stores to its operand and k is the operand's index, or k is one of
the stack bytes it pushes. -/
def MayStore (m : Mnemonic) (o : Operand) (s : State) (k : Nat) : Prop :=
  (m ∈ operandStores ∧ ∃ mode ea, o = .memory mode ∧ effAddr mode s = .ok ea ∧ mapAddr s.cfg ea = .ok k) ∨
  ∃ j < pushCount m, k = stackIndex (s.sp - BitVec.ofNat 8 j)

variable {s t : State} {k : Nat}

/-- The staged PC has no part in where an instruction stores. -/
theorem mayStore_withPC {m : Mnemonic} {o : Operand} {v : Addr} : MayStore m o (s.withPC v) k ↔ MayStore m o s k := by
  simp [MayStore]

/-! ## Rules by the shape of their operand -/

/-- The rules that read an operand and write registers and flags keep memory. -/
theorem read_mem {src : Source} {f : Byte → State}
    (h : (readSource src s >>= fun v => (pure (f v) : Staged State)) = .ok t) (hf : ∀ v, (f v).mem = s.mem) :
    t.mem = s.mem := by
  obtain ⟨v, rfl⟩ := read_bind_eq_ok h
  exact hf v

theorem onSource_mem {f : Source → State → Staged State} {o : Operand} (hf : ∀ src t, f src s = .ok t → t.mem = s.mem)
    (h : onSource f o s = .ok t) : t.mem = s.mem := by
  unfold onSource at h
  split at h
  · exact hf _ _ h
  · exact hf _ _ h
  · cases h; rfl

/-- A rule with a memory operand keeps a byte where it keeps it for the mode the operand has. -/
theorem onMemory_get {f : MemMode → State → Staged State} {o : Operand}
    (hf : ∀ mode t, o = .memory mode → f mode s = .ok t → t.mem.get k = s.mem.get k) (h : onMemory f o s = .ok t) :
    t.mem.get k = s.mem.get k := by
  unfold onMemory at h
  split at h
  · exact hf _ _ rfl h
  · cases h; rfl

/-- An index that the form does not store to is not its operand's. -/
theorem operandIndex_ne_of_not_mayStore {m : Mnemonic} {mode : MemMode} {ea : Addr} {j : Nat}
    (hm : m ∈ operandStores) (hk : ¬ MayStore m (.memory mode) s k) (hea : effAddr mode s = .ok ea)
    (hj : mapAddr s.cfg ea = .ok j) : j ≠ k := by
  rintro rfl
  exact hk (.inl ⟨hm, mode, ea, rfl, hea, hj⟩)

theorem storeTo_get {m : Mnemonic} {mode : MemMode} {v : Byte} (hm : m ∈ operandStores)
    (hk : ¬ MayStore m (.memory mode) s k) (h : storeTo mode v s = .ok t) : t.mem.get k = s.mem.get k := by
  obtain ⟨ea, j, hea, hj, rfl⟩ := storeTo_eq_ok h
  exact Memory.get_set_of_ne _ _ (operandIndex_ne_of_not_mayStore hm hk hea hj)

theorem modify_get {m : Mnemonic} {mode : MemMode} {g : Byte → Byte} {f : Byte × State → State}
    (hm : m ∈ operandStores) (hk : ¬ MayStore m (.memory mode) s k) (hf : ∀ v u, (f (v, u)).mem = u.mem)
    (h : (modifyAt mode g s >>= fun p => (pure (f p) : Staged State)) = .ok t) : t.mem.get k = s.mem.get k := by
  obtain ⟨ea, j, hea, hj, rfl⟩ := modify_bind_eq_ok h
  rw [hf]
  exact Memory.get_set_of_ne _ _ (operandIndex_ne_of_not_mayStore hm hk hea hj)

theorem onTarget_get {m : Mnemonic} {op : Byte → Bool → ShiftResult} {o : Operand} (hm : m ∈ operandStores)
    (hk : ¬ MayStore m o s k) (h : onTarget (shiftTarget op) o s = .ok t) : t.mem.get k = s.mem.get k := by
  cases o
  case memory mode => exact modify_get hm hk (fun _ _ => rfl) h
  all_goals cases h; rfl

theorem onRelative_mem {cond : Bool} {o : Operand} (h : onRelative (branch cond) o s = .ok t) : t.mem = s.mem := by
  cases o
  case relative off => cases cond <;> cases h <;> rfl
  all_goals cases h; rfl

theorem onJump_mem {o : Operand} (h : onJump o s = .ok t) : t.mem = s.mem := by
  unfold onJump at h
  split at h
  · cases h; rfl
  · obtain ⟨w, _, hw⟩ := staged_bind_eq_ok h
    cases hw; rfl
  · cases h; rfl

/-! ## Pushes -/

/-- An index that the instruction does not store to is that of none of the stack bytes it pushes. -/
theorem stackIndex_ne_of_not_mayStore {m : Mnemonic} {o : Operand} {p : Byte} (hk : ¬ MayStore m o s k) (j : Nat)
    (hj : j < pushCount m) (hp : p = s.sp - BitVec.ofNat 8 j) : stackIndex p ≠ k := by
  rintro rfl
  exact hk (.inr ⟨j, hj, hp ▸ rfl⟩)

theorem push_get {v : Byte} (hk : stackIndex s.sp ≠ k) (h : push s v = .ok t) : t.mem.get k = s.mem.get k := by
  rw [push_eq] at h
  cases h
  exact Memory.get_set_of_ne _ _ hk

theorem onCall_get {o : Operand} (h₀ : stackIndex s.sp ≠ k) (h₁ : stackIndex (s.sp - 1) ≠ k)
    (h : onCall o s = .ok t) : t.mem.get k = s.mem.get k := by
  unfold onCall at h
  split at h
  · simp only [callSub, pushAddr_eq, staged_bind_ok] at h
    cases h
    exact (Memory.get_set_of_ne _ _ h₁).trans (Memory.get_set_of_ne _ _ h₀)
  · cases h; rfl

theorem takeTrap_get {ret : Addr} (h₀ : stackIndex s.sp ≠ k) (h₁ : stackIndex (s.sp - 1) ≠ k)
    (h₂ : stackIndex (s.sp - 1 - 1) ≠ k) (h : takeTrap ret s = .ok t) : t.mem.get k = s.mem.get k := by
  rw [takeTrap_eq] at h
  obtain ⟨lo, _, h⟩ := staged_bind_eq_ok h
  obtain ⟨hi, _, h⟩ := staged_bind_eq_ok h
  cases h
  calc (trapMemory ret s).get k
    _ = ((s.mem.set (stackIndex s.sp) (hi8 ret)).set (stackIndex (s.sp - 1)) (lo8 ret)).get k :=
      Memory.get_set_of_ne _ _ h₂
    _ = (s.mem.set (stackIndex s.sp) (hi8 ret)).get k := Memory.get_set_of_ne _ _ h₁
    _ = s.mem.get k := Memory.get_set_of_ne _ _ h₀

/-! ## Every rule and every execution -/

/-- A rule keeps the byte at every index that `MayStore` does not name. -/
theorem ruleOf_get_of_not_mayStore {m : Mnemonic} {o : Operand} {s₀ : State} (h : ruleOf m o s₀ s = .ok t)
    (hk : ¬ MayStore m o s k) : t.mem.get k = s.mem.get k := by
  have ofMem : t.mem = s.mem → t.mem.get k = s.mem.get k := fun hm => by rw [hm]
  have slot : ∀ {p : Byte} (j : Nat), j < pushCount m → p = s.sp - BitVec.ofNat 8 j → stackIndex p ≠ k :=
    stackIndex_ne_of_not_mayStore hk
  cases m
  case lda | ldx | ldy | cmp | cpx | cpy | and | ora | eor =>
    refine ofMem (onSource_mem (fun _ _ hr => read_mem hr ?_) h)
    exact fun _ => rfl
  case adc | sbc | sbcU =>
    refine ofMem (onSource_mem (fun _ _ hr => read_mem (decimalCheck_bind_ok hr) ?_) h)
    exact fun _ => rfl
  case bit | lax =>
    refine onMemory_get (fun mode t _ hr => ?_) h
    rw [read_mem (src := .mem mode) hr fun _ => rfl]
  case sta | stx | sty | sax =>
    refine onMemory_get (fun mode t ho hr => ?_) h
    subst ho
    exact storeTo_get (by decide) hk hr
  case inc | dec | slo | rla | sre | dcp =>
    refine onMemory_get (fun mode t ho hr => ?_) h
    subst ho
    exact modify_get (by decide) hk (fun _ _ => rfl) hr
  case rra | isb =>
    refine onMemory_get (fun mode t ho hr => ?_) h
    subst ho
    exact modify_get (by decide) hk (fun _ _ => rfl) (decimalCheck_bind_ok hr)
  case asl | lsr | rol | ror => exact onTarget_get (by decide) hk h
  case bpl | bmi | bvc | bvs | bcc | bcs | bne | beq => exact ofMem (onRelative_mem h)
  case jmp => exact ofMem (onJump_mem h)
  case jsr => exact onCall_get (slot 0 (by decide) (by simp)) (slot 1 (by decide) rfl) h
  case brk =>
    exact takeTrap_get (slot 0 (by decide) (by simp)) (slot 1 (by decide) rfl) (slot 2 (by decide) (by bv_omega)) h
  case pha | php => exact push_get (slot 0 (by decide) (by simp)) h
  case rts | rti | pla | plp =>
    simp only [ruleOf, returnFromSub, returnFromTrap_eq, pullA, pullP, pullAddr_eq, pull_eq, staged_bind_ok] at h
    cases h
    rfl
  -- The one-byte register, transfer, flag and no-operation instructions.
  all_goals
    cases h
    rfl

/-- An execution keeps the byte at every index that `MayStore` does not name; one that halts keeps them all. -/
theorem exec_get_of_not_mayStore {i : Instr} (h : exec i s = .next t) (hk : ¬ MayStore i.mnemonic i.operand s k) :
    t.mem.get k = s.mem.get k := by
  rw [exec_eq_ruleOf] at h
  rcases execute_cases h with hok | ⟨e, _, rfl⟩ | ⟨_, rfl⟩
  · simpa using ruleOf_get_of_not_mayStore hok (mt mayStore_withPC.mp hk)
  · rfl
  · rfl

/-- A read of an address whose index `MayStore` does not name is kept by the execution. -/
theorem exec_memRead_of_not_mayStore {i : Instr} {a : Addr} (h : exec i s = .next t)
    (ha : ∀ k, mapAddr s.cfg a = .ok k → ¬ MayStore i.mnemonic i.operand s k) : memRead t a = memRead s a := by
  obtain ⟨hcfg, _, _⟩ := exec_keeps_inputs_and_flagB h
  exact memRead_congr_get hcfg fun k hk => exec_get_of_not_mayStore h (ha k hk)

/-! ## The table by the kind of instruction (R72) -/

/-- A form outside the storing ones stores nowhere. -/
theorem not_mayStore_of_not_storing {m : Mnemonic} {o : Operand}
    (hm : m ∉ ([.sta, .stx, .sty, .sax, .inc, .dec, .slo, .rla, .sre, .rra, .dcp, .isb, .pha, .php, .jsr, .brk] :
      List Mnemonic))
    (ho : m ∈ ([.asl, .lsr, .rol, .ror] : List Mnemonic) → o = .accumulator) : ¬ MayStore m o s k := by
  rintro (⟨hst, mode, _, rfl, _⟩ | ⟨j, hj, _⟩)
  · have hshift : m ∈ ([.asl, .lsr, .rol, .ror] : List Mnemonic) := by
      revert hm hst
      cases m <;> decide
    cases ho hshift
  · have hpush : pushCount m = 0 := by
      revert hm
      cases m <;> decide
    omega

theorem pushCount_of_mem_operandStores {m : Mnemonic} (h : m ∈ operandStores) : pushCount m = 0 := by
  revert h
  cases m <;> decide

/-- A form that stores to its operand stores to the operand's index alone. -/
theorem mayStore_iff_of_operandStores {m : Mnemonic} {mode : MemMode} {ea : Addr} (hm : m ∈ operandStores)
    (hea : effAddr mode s = .ok ea) : MayStore m (.memory mode) s k ↔ mapAddr s.cfg ea = .ok k := by
  simp [MayStore, hm, hea, pushCount_of_mem_operandStores hm]

/-- A form that pushes stores to its stack bytes alone. -/
theorem mayStore_iff_of_pushes {m : Mnemonic} {o : Operand} (hm : m ∉ operandStores) :
    MayStore m o s k ↔ ∃ j < pushCount m, k = stackIndex (s.sp - BitVec.ofNat 8 j) := by
  simp [MayStore, hm]

end Sys2Proof.Machine
end

section
/-! SUPPORT. The statements on memory (R61, R64 to R67, R70, R72, R82), from the lemmas above. -/

namespace Sys2Proof.Machine

/-! ## The invariant -/

/-- Settles O3: a completed execution is quiet, and a step that halts adds the one record of its outcome. -/
theorem stepKeepsStateWellFormed : Obligations.StepKeepsStateWellFormed :=
  fun _ _ => step_keeps_wf

/-! ## Fetch, Map, MemRead and MemWrite -/

/-- Settles O16: the decode phase sees a source only through what its fetches give and where the code ends. -/
theorem fetchReadsOnlyItsSource : Obligations.FetchReadsOnlyItsSource := by
  refine ⟨fun s hs => ⟨fun _ ha => fetchByte_of_stream hs ha, fun m => ?_⟩,
    fun s hs => ⟨fetchByte_of_memory hs, fun c => ?_⟩⟩
  · exact fetchInstr_congr (s := s) (t := s.withMem m) rfl rfl (fun _ => rfl) (fetchByte_withMem hs m)
  · have ht : ({ s with code := c } : State).cfg.fetchSource = .memory := hs
    refine fetchInstr_congr rfl rfl (fun n => ?_) fun a => ?_
    · rw [beyondCode_of_memory ht, beyondCode_of_memory hs]
    · rw [fetchByte_of_memory ht, fetchByte_of_memory hs]
      exact memRead_congr rfl rfl a

/-- Settles O17: each clause is Map at one policy; with MEM_SIZE = 65536 every address is below it. -/
theorem mapFollowsPolicy : Obligations.MapFollowsPolicy := by
  intro cfg a
  refine ⟨mapAddr_of_lt, fun _ hp => mapAddr_of_wrap hp a, fun h hp => mapAddr_of_error hp h, fun hsize => ?_⟩
  have hlt : a.toNat < cfg.memSize.bytes := hsize ▸ a.isLt
  exact mapAddr_of_lt hlt

/-- Settles O18: a read after a write, by the indices of the two addresses. -/
theorem readAfterWrite : Obligations.ReadAfterWrite :=
  fun _ _ _ _ _ _ _ hwf hw ha hb => memRead_of_memWrite hwf hw ha hb

/-- Settles O19: under wrap both addresses have the one index, their residue. -/
theorem aliasedAddressesNameOneByte : Obligations.AliasedAddressesNameOneByte := by
  intro s a b v hwf hp hab
  have ha : mapAddr s.cfg a = .ok (b.toNat % s.cfg.memSize.bytes) := hab ▸ mapAddr_of_wrap hp a
  have hb := mapAddr_of_wrap hp b
  refine ⟨by rw [memRead_of_map ha, memRead_of_map hb], _, memWrite_of_map ha v, ?_⟩
  rw [memRead_of_memWrite hwf (memWrite_of_map ha v) ha hb, if_pos rfl]

/-! ## Frames of memory -/

/-- Settles O27: such a form stores nowhere, so its execution keeps every read. -/
theorem nonStoringFormsKeepMemory : Obligations.NonStoringFormsKeepMemory :=
  fun _ _ _ h hm ho _ => exec_memRead_of_not_mayStore h fun _ _ => not_mayStore_of_not_storing hm ho

/-- Settles O28: the one index the form stores to is that of its effective address. -/
theorem storingFormsChangeOnlyTheirByte : Obligations.StoringFormsChangeOnlyTheirByte := by
  intro i s t m mode h htriple hm ea a hea hne
  obtain ⟨hmn, hop⟩ : i.mnemonic = m ∧ i.operand = .memory mode := by simp [Instr.mnemonic, Instr.operand, htriple]
  refine exec_memRead_of_not_mayStore h fun k hk hst => hne ?_
  rw [hmn, hop, mayStore_iff_of_operandStores hm hea] at hst
  rw [hk, hst]

/-- Settles O29: the indices the form stores to are those of its stack bytes. -/
theorem pushingFormsChangeOnlyTheirSlots : Obligations.PushingFormsChangeOnlyTheirSlots := by
  intro i s t n h hform a ha
  have hpush : i.mnemonic ∉ operandStores ∧ pushCount i.mnemonic = n := by
    rcases hform with ⟨hm, rfl⟩ | ⟨hm, rfl⟩ | ⟨hm, rfl⟩
    · revert hm
      cases i.mnemonic <;> decide
    · rw [hm]; decide
    · rw [hm]; decide
  obtain ⟨hns, rfl⟩ := hpush
  refine exec_memRead_of_not_mayStore h fun k hk hst => ?_
  obtain ⟨j, hj, rfl⟩ := (mayStore_iff_of_pushes hns).mp hst
  exact ha j hj hk

end Sys2Proof.Machine
end

section
/-! SUPPORT. Decoding in terms of the opcode map (R101, R102, R133): what classification and decoding answer, and how the
cell of an opcode and the encoder agree for every instruction. -/

namespace Sys2Proof.Laws

/-- Every instruction's cell, filled with its operand bytes, is the instruction: one row of the map for each constructor. -/
theorem TableRow.holds (i : Instr) : TableRow.Statement i :=
  i.casesOn
    ldaIndX ldaZp ldaImm ldaAbs ldaIndY ldaZpX ldaAbsY ldaAbsX ldxImm ldxZp ldxAbs ldxZpY ldxAbsY ldyImm ldyZp ldyAbs
    ldyZpX ldyAbsX staIndX staZp staAbs staIndY staZpX staAbsY staAbsX stxZp stxAbs stxZpY styZp styAbs styZpX incZp
    incAbs incZpX incAbsX decZp decAbs decZpX decAbsX inx iny dex dey cmpIndX cmpZp cmpImm cmpAbs cmpIndY cmpZpX
    cmpAbsY cmpAbsX cpxImm cpxZp cpxAbs cpyImm cpyZp cpyAbs bitZp bitAbs andIndX andZp andImm andAbs andIndY andZpX
    andAbsY andAbsX oraIndX oraZp oraImm oraAbs oraIndY oraZpX oraAbsY oraAbsX eorIndX eorZp eorImm eorAbs eorIndY
    eorZpX eorAbsY eorAbsX adcIndX adcZp adcImm adcAbs adcIndY adcZpX adcAbsY adcAbsX sbcIndX sbcZp sbcImm sbcAbs
    sbcIndY sbcZpX sbcAbsY sbcAbsX aslZp aslAcc aslAbs aslZpX aslAbsX lsrZp lsrAcc lsrAbs lsrZpX lsrAbsX rolZp rolAcc
    rolAbs rolZpX rolAbsX rorZp rorAcc rorAbs rorZpX rorAbsX bpl bmi bvc bvs bcc bcs bne beq jmpAbs jmpInd jsrAbs rts
    brk rti pha php pla plp tax tay txa tya tsx txs clc sec cli sei cld sed clv nop sloIndX sloZp sloAbs sloIndY
    sloZpX sloAbsY sloAbsX rlaIndX rlaZp rlaAbs rlaIndY rlaZpX rlaAbsY rlaAbsX sreIndX sreZp sreAbs sreIndY sreZpX
    sreAbsY sreAbsX rraIndX rraZp rraAbs rraIndY rraZpX rraAbsY rraAbsX dcpIndX dcpZp dcpAbs dcpIndY dcpZpX dcpAbsY
    dcpAbsX isbIndX isbZp isbAbs isbIndY isbZpX isbAbsY isbAbsX laxIndX laxZp laxAbs laxIndY laxZpY laxAbsY saxIndX
    saxZp saxAbs saxZpY sbcImmEB nopZp04 nopAbs0C nopZpX14 nopImp1A nopAbsX1C nopZpX34 nopImp3A nopAbsX3C nopZp44
    nopZpX54 nopImp5A nopAbsX5C nopZp64 nopZpX74 nopImp7A nopAbsX7C nopImm80 nopImm82 nopImm89 nopImmC2 nopZpXD4
    nopImpDA nopAbsXDC nopImmE2 nopZpXF4 nopImpFA nopAbsXFC

variable {cfg : Config} {opc : Byte} {cell : Template} {ops bs rest : List Byte} {i : Instr}

/-! ## Filling a cell -/

theorem fillCell_eq_some (h : fillCell cell ops = some i) :
    (cell = .one i ∧ ops = []) ∨ (∃ f b1, cell = .two f ∧ ops = [b1] ∧ i = f b1) ∨
    (∃ f b1 b2, cell = .three f ∧ ops = [b1, b2] ∧ i = f (hiLo b2 b1)) := by
  unfold fillCell at h
  split at h
  · cases h; exact .inl ⟨rfl, rfl⟩
  · cases h; exact .inr (.inl ⟨_, _, rfl, rfl, rfl⟩)
  · cases h; exact .inr (.inr ⟨_, _, _, rfl, rfl, rfl⟩)
  · cases h

theorem fillCell_length (h : fillCell cell ops = some i) : cell.length = ops.length + 1 := by
  obtain ⟨rfl, rfl⟩ | ⟨f, b1, rfl, rfl, rfl⟩ | ⟨f, b1, b2, rfl, rfl, rfl⟩ := fillCell_eq_some h <;> rfl

/-- An instruction that a sound cell gives for operand bytes is encoded by the cell's opcode and those bytes. -/
theorem CellSound.encode_eq (hs : CellSound opc (some cell)) (h : fillCell cell ops = some i) : encode i = opc :: ops := by
  obtain ⟨rfl, rfl⟩ | ⟨f, b1, rfl, rfl, rfl⟩ | ⟨f, b1, b2, rfl, rfl, rfl⟩ := fillCell_eq_some h
  · obtain ⟨hopc, hops⟩ := hs
    rw [encode, hopc, hops]
  · obtain ⟨hopc, hops⟩ := hs b1
    rw [encode, hopc, hops]
  · obtain ⟨hopc, hops⟩ := hs (hiLo b2 b1)
    rw [encode, hopc, hops, lo8_hiLo, hi8_hiLo]

theorem encode_length (i : Instr) : (encode i).length = i.length := by
  have h : ∀ o : Operand, o.bytes.length + 1 = o.length := by
    intro o
    cases o
    case memory m => cases m <;> rfl
    all_goals rfl
  exact h i.operand

/-! ## Classification and well-formedness -/

theorem classify_eq_admitted : classify cfg opc = .admitted cell ↔
    tableCell opc = some cell ∧ opc ∉ cfg.haltOpcodes ∧ ¬ (cfg.illegalSet = .none ∧ opc ∈ undocumentedOpcodes) := by
  unfold classify
  by_cases hhalt : opc ∈ cfg.haltOpcodes
  · simp [hhalt]
  · cases tableCell opc with
    | none => simp [hhalt]
    | some c => by_cases hout : cfg.illegalSet = .none ∧ opc ∈ undocumentedOpcodes <;> simp [hhalt, hout]

theorem admitted_iff :
    i.admitted cfg = true ↔ ¬ (cfg.illegalSet = .none ∧ i.opcode ∈ undocumentedOpcodes) := by
  cases hset : cfg.illegalSet <;> simp [Instr.admitted, hset]

theorem notHalt_iff : i.notHalt cfg = true ↔ i.opcode ∉ cfg.haltOpcodes := by
  simp [Instr.notHalt]

/-- Well-formedness asks of an instruction what classification asks of its opcode (R133). -/
theorem wellFormed_iff : i.wellFormed cfg = true ↔
    i.opcode ∉ cfg.haltOpcodes ∧ ¬ (cfg.illegalSet = .none ∧ i.opcode ∈ undocumentedOpcodes) := by
  rw [Instr.wellFormed, Bool.and_eq_true, admitted_iff, notHalt_iff, and_comm]

/-! ## Decoding -/

/-- What decodes: the opcode of an admitted cell, and the operand bytes that fill it (R102, R104). -/
theorem decode_eq_ok : decode cfg bs = .ok (i, rest) ↔
    ∃ opc cell ops, bs = opc :: (ops ++ rest) ∧ classify cfg opc = .admitted cell ∧ fillCell cell ops = some i := by
  constructor
  · intro h
    unfold decode at h
    split at h
    · cases h
    · split at h
      · cases h
      · cases h
      · cases h; exact ⟨_, _, [], rfl, ‹_›, rfl⟩
      · split at h
        · cases h; exact ⟨_, _, [_], rfl, ‹_›, rfl⟩
        · cases h
      · split at h
        · cases h; exact ⟨_, _, [_, _], rfl, ‹_›, rfl⟩
        · cases h
  · rintro ⟨opc, cell, ops, rfl, hc, hf⟩
    obtain ⟨rfl, rfl⟩ | ⟨f, b1, rfl, rfl, rfl⟩ | ⟨f, b1, b2, rfl, rfl, rfl⟩ := fillCell_eq_some hf <;>
      simp [decode, hc]

/-- Decoding the words of an instruction whose opcode the configuration lets decode. -/
theorem decode_encode_append (h : i.wellFormed cfg = true) (rest : List Byte) :
    decode cfg (encode i ++ rest) = .ok (i, rest) := by
  obtain ⟨cell, hcell, _, hfill⟩ := TableRow.holds i
  exact decode_eq_ok.mpr
    ⟨i.opcode, cell, i.operand.bytes, rfl, classify_eq_admitted.mpr ⟨hcell, wellFormed_iff.mp h⟩, hfill⟩

/-- What decodes is the encoding of a well-formed instruction. -/
theorem encode_of_decode (h : decode cfg bs = .ok (i, rest)) : bs = encode i ++ rest ∧ i.wellFormed cfg = true := by
  obtain ⟨opc, cell, ops, rfl, hc, hfill⟩ := decode_eq_ok.mp h
  obtain ⟨hcell, hadm⟩ := classify_eq_admitted.mp hc
  have hsound : CellSound opc (some cell) := hcell ▸ tableCell_sound opc
  have henc : encode i = opc :: ops := hsound.encode_eq hfill
  have hopc : i.opcode = opc := List.head_eq_of_cons_eq henc
  exact ⟨by rw [henc, List.cons_append], wellFormed_iff.mpr (hopc ▸ hadm)⟩

end Sys2Proof.Laws
end

section
/-! SUPPORT. The decode phase of a step (R70, R102), one equation for each of its parts that gives an instruction, and the
numbers of the effective addresses (R114 to R120). -/

namespace Sys2Proof.Machine

open Sys2Proof.Laws

variable {s : State} {i : Instr} {bs rest : List Byte}

/-! ## The decode phase of a step -/

theorem beyondCode_eq_false {n : Nat} :
    beyondCode s n = false ↔ (s.cfg.fetchSource = .stream → n ≤ s.code.length) := by
  simp [beyondCode]

/-- The admitted opcode of an instruction that ends inside the code leads to its operand fetches. -/
theorem fetchInstr_of_admitted {opc : Byte} {cell : Template} (hopc : fetchByte s s.pc = .ok opc)
    (hc : classify s.cfg opc = .admitted cell)
    (hend : s.cfg.fetchSource = .stream → s.pc.toNat + cell.length ≤ s.code.length) :
    fetchInstr s = fetchOperands s cell := by
  have hpos : 1 ≤ cell.length := by cases cell <;> simp [Template.length]
  have hcell : beyondCode s (s.pc.toNat + cell.length) = false := beyondCode_eq_false.mpr hend
  have hone : beyondCode s (s.pc.toNat + 1) = false := beyondCode_eq_false.mpr fun h => by have := hend h; omega
  simp [fetchInstr, hone, hopc, hc, hcell]

theorem fetchOperands_of_fillCell {cell : Template} {ops : List Byte} (hfill : fillCell cell ops = some i)
    (hops : ∀ (k : Nat) (b : Byte), ops[k]? = some b → fetchByte s (s.pc + BitVec.ofNat 16 (k + 1)) = .ok b) :
    fetchOperands s cell = .instr i := by
  obtain ⟨rfl, rfl⟩ | ⟨f, b1, rfl, rfl, rfl⟩ | ⟨f, b1, b2, rfl, rfl, rfl⟩ := fillCell_eq_some hfill
  · rfl
  · have h1 : fetchByte s (s.pc + 1) = .ok b1 := hops 0 b1 rfl
    simp only [fetchOperands, h1]
  · have h1 : fetchByte s (s.pc + 1) = .ok b1 := hops 0 b1 rfl
    have h2 : fetchByte s (s.pc + 2) = .ok b2 := hops 1 b2 rfl
    simp only [fetchOperands, h1, h2]

/-- The decode phase gives the instruction that the bytes at PC, PC + 1, ... decode to, where it ends inside the code. -/
theorem fetchInstr_of_decode (hd : decode s.cfg bs = .ok (i, rest))
    (hbytes : ∀ (k : Nat) (b : Byte), bs[k]? = some b → fetchByte s (s.pc + BitVec.ofNat 16 k) = .ok b)
    (hend : s.cfg.fetchSource = .stream → s.pc.toNat + bs.length ≤ s.code.length) : fetchInstr s = .instr i := by
  obtain ⟨opc, cell, ops, rfl, hc, hfill⟩ := decode_eq_ok.mp hd
  have hlen : cell.length ≤ (opc :: (ops ++ rest)).length := by simp [fillCell_length hfill]
  have hopc : fetchByte s s.pc = .ok opc := by simpa using hbytes 0 opc rfl
  rw [fetchInstr_of_admitted hopc hc fun h => by have := hend h; omega]
  refine fetchOperands_of_fillCell hfill fun k b hk => hbytes (k + 1) b ?_
  rw [List.getElem?_cons_succ, List.getElem?_append_left (List.getElem?_eq_some_iff.mp hk).1, hk]

/-- In a stream that keeps the host's duty, the fetches from PC on give the bytes of CODE from PC on. -/
theorem fetchByte_of_drop (hs : s.cfg.fetchSource = .stream) (hcode : s.codeInRange) {k : Nat} {b : Byte}
    (hk : (s.code.drop s.pc.toNat)[k]? = some b) : fetchByte s (s.pc + BitVec.ofNat 16 k) = .ok b := by
  rw [List.getElem?_drop, List.getElem?_eq_some_iff] at hk
  obtain ⟨hlt, rfl⟩ := hk
  have haddr : (s.pc + BitVec.ofNat 16 k).toNat = s.pc.toNat + k := by
    simp only [BitVec.toNat_add, BitVec.toNat_ofNat]
    omega
  exact (fetchByte_of_stream hs (haddr ▸ hlt)).trans (by simp only [haddr])

/-! ## Effective addresses as numbers -/

theorem zeroPage_add_toNat (b c : Byte) : (zeroPage (b + c)).toNat = (b.toNat + c.toNat) % 256 := by
  rw [zeroPage_toNat, BitVec.toNat_add]

/-- An index register is added to a 16-bit base modulo 65536 (R118, R120). -/
theorem addr_add_index_toNat (w : Addr) (c : Byte) : (w + c.setWidth 16).toNat = (w.toNat + c.toNat) % 65536 := by
  simp [BitVec.toNat_add, BitVec.toNat_setWidth]

/-- The pointer that page 0 holds at p, its high byte at the next address of page 0 (R16). -/
theorem read16ZP_number (s : State) (p : Byte) : ∃ w, read16ZP s p = .ok w ∧
    w.toNat = (s.mem.get ((p.toNat + 1) % 256)).toNat * 256 + (s.mem.get p.toNat).toNat := by
  refine ⟨_, read16ZP_eq s p, ?_⟩
  rw [hiLo_toNat, BitVec.toNat_add]
  rfl

theorem effAddr_indX_number (s : State) (b : Byte) : ∃ ea, effAddr (.indX b) s = .ok ea ∧ ea.toNat =
    (s.mem.get ((b.toNat + s.x.toNat + 1) % 256)).toNat * 256 + (s.mem.get ((b.toNat + s.x.toNat) % 256)).toNat := by
  obtain ⟨w, hw, hn⟩ := read16ZP_number s (b + s.x)
  refine ⟨w, hw, ?_⟩
  rw [hn, BitVec.toNat_add, Nat.mod_add_mod]

theorem effAddr_indY_number (s : State) (b : Byte) : ∃ ea, effAddr (.indY b) s = .ok ea ∧ ea.toNat =
    ((s.mem.get ((b.toNat + 1) % 256)).toNat * 256 + (s.mem.get b.toNat).toNat + s.y.toNat) % 65536 := by
  obtain ⟨w, hw, hn⟩ := read16ZP_number s b
  refine ⟨w + s.y.setWidth 16, by simp only [effAddr, hw]; rfl, ?_⟩
  rw [addr_add_index_toNat, hn]

end Sys2Proof.Machine
end

section
/-! SUPPORT. The statements on encoding, the decode phase and the addressing modes (R101 to R105, R114 to R120, R130 to
R133), from the lemmas above. -/

namespace Sys2Proof.Machine

open Sys2Proof.Laws

/-! ## Decode and encode -/

/-- Settles O8: the instruction's row of the opcode map, at an opcode that the configuration lets decode. -/
theorem decodeOfEncodeIsTheInstruction : Obligations.DecodeOfEncodeIsTheInstruction :=
  fun _ _ rest h => decode_encode_append h rest

/-- Settles O9: the cell that the bytes fill agrees with the encoder. -/
theorem decodedBytesAreAnEncoding : Obligations.DecodedBytesAreAnEncoding := by
  intro cfg bs rest i h
  obtain ⟨hbs, hwf⟩ := encode_of_decode h
  exact ⟨hbs, encode_length i, hwf⟩

/-- Settles O10: the twelve fixed words are decoded by computation. -/
theorem sampleWordsDecode : Obligations.SampleWordsDecode := by
  unfold Obligations.SampleWordsDecode
  decide

/-! ## The decode phase of a step -/

/-- Settles O11: in both fetch modes the fetches from PC on give the bytes that decode. -/
theorem stepRunsTheDecodedInstruction : Obligations.StepRunsTheDecodedInstruction := by
  intro s i he hcode
  refine ⟨fun rest hs hd => ?_, fun bs hm hbytes hd => ?_⟩
  · refine step_of_instr he (fetchInstr_of_decode hd (fun k b hk => fetchByte_of_drop hs hcode hk) fun _ => ?_)
    have hne : s.code.drop s.pc.toNat ≠ [] := by rintro h; rw [h] at hd; cases hd
    have hlt : s.pc.toNat < s.code.length := by simpa using hne
    rw [List.length_drop]
    omega
  · refine step_of_instr he (fetchInstr_of_decode hd (fun k b hk => ?_) fun hs => ?_)
    · rw [fetchByte_of_memory hm]
      exact hbytes k b hk
    · cases hm.symm.trans hs

/-! ## Effective addresses -/

/-- Settles O24: a direct mode is one sum with its wrap, an indirect one the pointer that page 0 holds. -/
theorem effectiveAddressOfEachMode : Obligations.EffectiveAddressOfEachMode := by
  intro s b w
  exact ⟨⟨_, rfl, zeroPage_toNat b⟩, ⟨_, rfl, zeroPage_add_toNat b s.x⟩, ⟨_, rfl, zeroPage_add_toNat b s.y⟩,
    ⟨_, rfl, rfl⟩, ⟨_, rfl, addr_add_index_toNat w s.x⟩, ⟨_, rfl, addr_add_index_toNat w s.y⟩,
    effAddr_indX_number s b, effAddr_indY_number s b⟩

end Sys2Proof.Machine
end

section
/-! SUPPORT. What a rule that reads its operand and sets Z and N from a result leaves (R38, R110), and which operands a decoded
triple can have (R103). -/

namespace Sys2Proof.Machine

/-- SetNZ on the state, in the terms of the statements. -/
theorem State.setNZ_eq_withZN (s : State) (v : Byte) : s.setNZ v = { s with p := withZN s.p v } :=
  congrArg s.withP (Flags.setNZ_eq_withZN s.p v)

/-- A rule that reads its operand, writes with `w` and sets Z and N from `r`, where the operand is readable. -/
theorem read_setNZ_of_ok {src : Source} {s : State} {v : Byte} {w : Byte → State} {r : Byte → Byte}
    (hv : readSource src s = .ok v) :
    (readSource src s >>= fun op => (pure ((w op).setNZ (r op)) : Staged State)) =
      .ok { w v with p := withZN (w v).p (r v) } := by
  rw [hv, staged_bind_ok, State.setNZ_eq_withZN, staged_pure]

theorem operandFits_of_triple {i : Instr} {m : Mnemonic} {o : Operand} (h : i.triple = (m, o)) : operandFits m o = true := by
  simpa only [Instr.mnemonic, Instr.operand, h] using operandFits_instr i

/-- LAX has no immediate form (R407). -/
theorem exists_mode_of_lax {i : Instr} {src : Source} (h : i.triple = (.lax, src.operand)) : ∃ mode, src = .mem mode := by
  cases src with
  | imm v => cases operandFits_of_triple h
  | mem mode => exact ⟨mode, rfl⟩

end Sys2Proof.Machine
end

section
/-! SUPPORT. The statements on loads and stores (R200 to R205, R407, R408), from the lemmas above. -/

namespace Sys2Proof.Machine

/-- Settles O31: each form runs its mnemonic's rule on the staged state, where the operand reads as it does at the start. -/
theorem loadsTakeTheOperand : Obligations.LoadsTakeTheOperand := by
  intro i s src v hv
  have hstaged : readSource src (s.withPC (nextPC s i)) = .ok v := by rw [readSource_withPC, hv]
  refine ⟨fun h => ?_, fun h => ?_, fun h => ?_, fun h => ?_⟩
  · exact exec_source (f := loadA) h (fun _ _ => rfl) (read_setNZ_of_ok hstaged)
  · exact exec_source (f := loadX) h (fun _ _ => rfl) (read_setNZ_of_ok hstaged)
  · exact exec_source (f := loadY) h (fun _ _ => rfl) (read_setNZ_of_ok hstaged)
  · obtain ⟨mode, rfl⟩ := exists_mode_of_lax h
    exact exec_memory (f := loadAX) h (fun _ _ => rfl) (read_setNZ_of_ok hstaged)

/-- Settles O32: each form runs its mnemonic's rule on the staged state, where EA and its index are those at the start. -/
theorem storesWriteTheRegister : Obligations.StoresWriteTheRegister := by
  intro i s mode ea k hea hk
  have hstore := storeTo_withPC hea hk (nextPC s i)
  refine ⟨fun h => ?_, fun h => ?_, fun h => ?_, fun h => ?_⟩
  · exact exec_memory (f := storeA) h (fun _ _ => rfl) (hstore s.a)
  · exact exec_memory (f := storeX) h (fun _ _ => rfl) (hstore s.x)
  · exact exec_memory (f := storeY) h (fun _ _ => rfl) (hstore s.y)
  · exact exec_memory (f := storeAandX) h (fun _ _ => rfl) (hstore (s.a &&& s.x))

end Sys2Proof.Machine
end

section
/-! SUPPORT. Increment and decrement on the staged state (R220 to R225): the byte with the number of the rule, what a
read-modify-write that sets Z and N leaves, and that writing back the byte read restores memory. -/

namespace Sys2Proof.Machine

variable {i : Instr} {s t : State} {mode : MemMode} {ea : Addr} {k : Nat} {b r : Byte}

/-! ## The byte that is one more or one less modulo 256 -/

theorem eq_add_one_of_toNat (h : r.toNat = (b.toNat + 1) % 256) : r = b + 1 :=
  BitVec.eq_of_toNat_eq (h.trans (BitVec.toNat_add b 1).symm)

theorem eq_sub_one_of_toNat (h : r.toNat = (b.toNat + 255) % 256) : r = b - 1 := by
  bv_omega

/-! ## Rules that set Z and N from a result -/

/-- A rule that replaces the byte at its operand by `f` of it and sets Z and N from the result, where EA is mapped. -/
theorem modify_setNZ_of_map (hea : effAddr mode s = .ok ea) (hk : mapAddr s.cfg ea = .ok k) (v : Addr)
    (f : Byte → Byte) :
    (modifyAt mode f (s.withPC v) >>= fun q => (pure (q.2.setNZ (f q.1)) : Staged State)) =
      .ok { s with mem := s.mem.set k (f (s.mem.get k)), p := withZN s.p (f (s.mem.get k)), pc := v } := by
  rw [modifyAt_withPC hea hk, staged_bind_ok, State.setNZ_eq_withZN, staged_pure]
  rfl

theorem exec_inc_of_map (h : i.triple = (.inc, .memory mode)) (hea : effAddr mode s = .ok ea)
    (hk : mapAddr s.cfg ea = .ok k) : exec i s = .next { s with
      mem := s.mem.set k (s.mem.get k + 1), p := withZN s.p (s.mem.get k + 1), pc := nextPC s i } :=
  exec_memory (f := incMem) h (fun _ _ => rfl) (modify_setNZ_of_map hea hk _ (· + 1))

theorem exec_dec_of_map (h : i.triple = (.dec, .memory mode)) (hea : effAddr mode s = .ok ea)
    (hk : mapAddr s.cfg ea = .ok k) : exec i s = .next { s with
      mem := s.mem.set k (s.mem.get k - 1), p := withZN s.p (s.mem.get k - 1), pc := nextPC s i } :=
  exec_memory (f := decMem) h (fun _ _ => rfl) (modify_setNZ_of_map hea hk _ (· - 1))

/-- A form of one byte whose rule ends by setting Z and N from a result. -/
theorem exec_implied_setNZ {m : Mnemonic} {w : State} (h : i.triple = (m, .implied))
    (hr : ruleOf m .implied s (s.withPC (s.pc + 1)) = .ok (w.setNZ r)) (ht : { w with p := withZN w.p r } = t) :
    exec i s = .next t :=
  exec_implied h (by rw [hr, State.setNZ_eq_withZN, ht])

/-! ## The same operand again -/

/-- Every form of INC is direct (R220): its EA is computed from the instruction and X, not from a pointer in memory. -/
theorem effAddr_of_inc (h : i.triple = (.inc, .memory mode)) (hea : effAddr mode s = .ok ea) (hx : t.x = s.x) :
    effAddr mode t = .ok ea := by
  rw [← hea]
  cases i <;> cases h
  case incZp | incAbs => rfl
  case incZpX | incAbsX => simp only [effAddr, hx]

/-- Writing back the byte that an index held undoes a write there, in a canonical memory. -/
theorem Memory.set_set_get {m : Memory} (h : m.wf) (k : Nat) (v : Byte) : (m.set k v).set k (m.get k) = m := by
  have hset := Memory.wf_set h k v
  refine Memory.ext_get (Memory.wf_set hset k _) h fun j => ?_
  by_cases hkj : k = j
  · subst hkj
    exact Memory.get_set_self hset k _
  · rw [Memory.get_set_of_ne _ _ hkj, Memory.get_set_of_ne _ _ hkj]

end Sys2Proof.Machine
end

section
/-! SUPPORT. The statements on increment and decrement (R220 to R225), from the lemmas above. -/

namespace Sys2Proof.Machine

/-- Settles O33: the result is the byte that its number fixes, and each form runs its mnemonic's read-modify-write. -/
theorem incrementAndDecrementMemory : Obligations.IncrementAndDecrementMemory := by
  intro i s mode ea k r hea hk
  refine ⟨fun h hr => ?_, fun h hr => ?_⟩
  · rw [eq_add_one_of_toNat hr]
    exact exec_inc_of_map h hea hk
  · rw [eq_sub_one_of_toNat hr]
    exact exec_dec_of_map h hea hk

/-- Settles O34: DEC finds the same byte as INC, since no form of INC takes its address from memory, and writes back what the
byte was. -/
theorem incrementThenDecrementRestores : Obligations.IncrementThenDecrementRestores := by
  intro i j s mode ea k hmem hi hj hea hk
  refine ⟨_, _, exec_inc_of_map hi hea hk, exec_dec_of_map hj (effAddr_of_inc hi hea rfl) hk, ?_⟩
  have hbyte : (s.mem.set k (s.mem.get k + 1)).get k - 1 = s.mem.get k := by
    rw [Memory.get_set_self hmem, BitVec.add_sub_cancel]
  simp only [hbyte, Memory.set_set_get hmem]
  rfl

/-- Settles O35: the result is the byte that its number fixes, and each form runs its register's rule. -/
theorem incrementAndDecrementRegisters : Obligations.IncrementAndDecrementRegisters := by
  intro s r
  refine ⟨fun hr => ?_, fun hr => ?_, fun hr => ?_, fun hr => ?_⟩
  · exact eq_add_one_of_toNat hr ▸ exec_implied_setNZ rfl rfl rfl
  · exact eq_add_one_of_toNat hr ▸ exec_implied_setNZ rfl rfl rfl
  · exact eq_sub_one_of_toNat hr ▸ exec_implied_setNZ rfl rfl rfl
  · exact eq_sub_one_of_toNat hr ▸ exec_implied_setNZ rfl rfl rfl

end Sys2Proof.Machine
end

section
/-! SUPPORT. Rules that read their operand and write flags alone (R240, R244), on the staged state. -/

namespace Sys2Proof.Machine

/-- The flags of BIT (R244), with the zero test as a number. -/
theorem bitFlags_eq (p : Flags) (a op : Byte) : bitFlags p a op = { p with
    z := decide ((a &&& op).toNat = 0), n := op.getLsbD 7, v := op.getLsbD 6 } := by
  have hz : (a &&& op == 0x00) = decide ((a &&& op).toNat = 0) := beq_eq_decide_toNat (a &&& op) 0x00
  simp only [bitFlags, hz]

/-- A rule that reads its operand and writes the flags `g` gives for it, where the operand is readable at the start. -/
theorem read_withP_of_ok {src : Source} {s : State} {v : Byte} (hv : readSource src s = .ok v) (w : Addr) {g : Byte → Flags}
    {q : Flags} (hq : g v = q) :
    (readSource src (s.withPC w) >>= fun op => (pure ((s.withPC w).withP (g op)) : Staged State)) =
      .ok { s with pc := w, p := q } := by
  rw [readSource_withPC, hv, staged_bind_ok, staged_pure, hq]
  rfl

end Sys2Proof.Machine
end

section
/-! SUPPORT. The statements on compare and bit test (R240 to R244), from the lemmas above. -/

namespace Sys2Proof.Machine

/-- Settles O36: each form compares its mnemonic's register, which staging PC leaves alone, with the operand. -/
theorem comparesSetCarryZeroNegative : Obligations.ComparesSetCarryZeroNegative := by
  rintro i s src v r hv (⟨h, rfl⟩ | ⟨h, rfl⟩ | ⟨h, rfl⟩)
  · exact exec_source (f := compareA) h (fun _ _ => rfl) (read_withP_of_ok hv _ (compareFlags_eq s.p s.a v))
  · exact exec_source (f := compareX) h (fun _ _ => rfl) (read_withP_of_ok hv _ (compareFlags_eq s.p s.x v))
  · exact exec_source (f := compareY) h (fun _ _ => rfl) (read_withP_of_ok hv _ (compareFlags_eq s.p s.y v))

/-- Settles O37: both forms take their flags from the operand and from A, which staging PC leaves alone. -/
theorem bitTestSetsZeroNegativeOverflow : Obligations.BitTestSetsZeroNegativeOverflow := by
  intro i s mode v hv h
  exact exec_memory (f := bitTest) h (fun _ _ => rfl) (read_withP_of_ok hv _ (bitFlags_eq s.p s.a v))

end Sys2Proof.Machine
end

section
/-! SUPPORT. The statement on the logical instructions (R260 to R262), from the lemmas above. -/

namespace Sys2Proof.Machine

/-- Settles O38: each form writes A and the flags from the one bitwise result. The operand and A, read on the staged state,
are those of the start. -/
theorem logicalOperationsOnA : Obligations.LogicalOperationsOnA := by
  intro i s src v hv
  have hstaged : readSource src (s.withPC (nextPC s i)) = .ok v := by rw [readSource_withPC, hv]
  refine ⟨fun h => ?_, fun h => ?_, fun h => ?_⟩
  · exact exec_source (f := andA) h (fun _ _ => rfl) (read_setNZ_of_ok hstaged)
  · exact exec_source (f := orA) h (fun _ _ => rfl) (read_setNZ_of_ok hstaged)
  · exact exec_source (f := eorA) h (fun _ _ => rfl) (read_setNZ_of_ok hstaged)

end Sys2Proof.Machine
end

section
/-! SUPPORT. The adder in the terms of the statements (R280): the result as the byte with the sum's number, overflow as the
signed sum outside -128..127, and subtraction as addition of the complement (R282). -/

namespace Sys2Proof.Machine

variable {s : State} {x m r : Byte} {cin c v : Bool}

theorem addCore_res_toNat (x m : Byte) (cin : Bool) :
    (addCore x m cin).res.toNat = (x.toNat + m.toNat + cin.toNat) % 256 :=
  BitVec.toNat_ofNat _ 8

theorem addCore_cout (x m : Byte) (cin : Bool) :
    (addCore x m cin).cout = decide (256 ≤ x.toNat + m.toNat + cin.toNat) := rfl

/-- Overflow as the bit pattern of R280: the operands agree in sign and the result differs. -/
theorem addCore_vout (x m : Byte) (cin : Bool) :
    (addCore x m cin).vout = (!(x.msb ^^ m.msb) && (x.msb ^^ (addCore x m cin).res.msb)) := by
  simp [addCore, BitVec.msb_and, BitVec.msb_xor, BitVec.msb_not]

/-- The bit pattern is signed overflow, by the signs of the operands: where they differ no sum overflows, and where they agree
the result's sign tells. -/
theorem addCore_vout_iff (x m : Byte) (cin : Bool) :
    (addCore x m cin).vout = true ↔
      x.toInt + m.toInt + cin.toNat < -128 ∨ 127 < x.toInt + m.toInt + cin.toNat := by
  have hcin := Bool.toNat_le cin
  have hres := addCore_res_toNat x m cin
  have hmsb : ∀ b : Byte, b.msb = decide (128 ≤ b.toNat) := BitVec.msb_eq_decide
  have hint : ∀ b : Byte, b.toInt = if 2 * b.toNat < 256 then (b.toNat : Int) else b.toNat - 256 :=
    BitVec.toInt_eq_toNat_cond
  rw [addCore_vout, hmsb, hmsb, hmsb, hint, hint]
  by_cases hx : 128 ≤ x.toNat <;> by_cases hm : 128 ≤ m.toNat <;> simp [hx, hm] <;> omega

/-- AddCore, where the number of the result is given. -/
theorem addCore_eq (hr : r.toNat = (x.toNat + m.toNat + cin.toNat) % 256) :
    addCore x m cin = ⟨r, decide (256 ≤ x.toNat + m.toNat + cin.toNat),
      decide (x.toInt + m.toInt + cin.toNat < -128 ∨ 127 < x.toInt + m.toInt + cin.toNat)⟩ := by
  have hres : (addCore x m cin).res = r := BitVec.eq_of_toNat_eq ((addCore_res_toNat x m cin).trans hr.symm)
  have hvout := Bool.eq_iff_iff.mpr ((addCore_vout_iff x m cin).trans decide_eq_true_iff.symm)
  rw [← hres, ← hvout]
  rfl

theorem complement_toNat (m : Byte) : (m ^^^ 0xFF).toNat = 255 - m.toNat := by
  rw [show m ^^^ 0xFF = ~~~m from BitVec.xor_allOnes, BitVec.toNat_not]

theorem complement_toInt (m : Byte) : (m ^^^ 0xFF).toInt = -1 - m.toInt := by
  have hm := m.isLt
  rw [BitVec.toInt_eq_toNat_cond, BitVec.toInt_eq_toNat_cond, complement_toNat]
  split <;> split <;> omega

/-- AddCore on the complement of `m` is the subtraction with borrow, carry meaning no borrow (R282). -/
theorem addCore_complement_eq (hr : (r.toNat : Int) = ((x.toNat : Int) - m.toNat - (1 - cin.toNat)) % 256) :
    addCore x (m ^^^ 0xFF) cin = ⟨r, decide (0 ≤ (x.toNat : Int) - m.toNat - (1 - cin.toNat)),
      decide (x.toInt - m.toInt - (1 - cin.toNat) < -128 ∨ 127 < x.toInt - m.toInt - (1 - cin.toNat))⟩ := by
  have hm := m.isLt
  have hsum : x.toInt + (-1 - m.toInt) + cin.toNat = x.toInt - m.toInt - (1 - cin.toNat) := by omega
  have hcarry : 256 ≤ x.toNat + (255 - m.toNat) + cin.toNat ↔
      0 ≤ (x.toNat : Int) - m.toNat - (1 - cin.toNat) := by omega
  have hr' : r.toNat = (x.toNat + (m ^^^ 0xFF).toNat + cin.toNat) % 256 := by
    rw [complement_toNat]
    omega
  rw [addCore_eq hr', complement_toNat, complement_toInt, hsum, decide_eq_decide.mpr hcarry]

/-- What an addition into A leaves, from what AddCore returns (R281). -/
theorem accumulate_eq (h : addCore s.a m s.p.c = ⟨r, c, v⟩) :
    accumulate s m = { s with a := r, p := { withZN s.p r with c := c, v := v } } := by
  simp only [accumulate, h, State.setNZ_eq_withZN]
  rfl

end Sys2Proof.Machine
end

section
/-! SUPPORT. The rules of ADC and SBC on the staged state where the decimal refusal does not bar them, and where an execution
refuses (R283). -/

namespace Sys2Proof.Machine

variable {i : Instr} {m : Mnemonic} {o : Operand} {s s₀ t : State} {src : Source} {b r : Byte} {c v : Bool}

/-- A rule that checks for the refusal, reads its operand and adds `g` of it into A, where the operand is readable at the
start and the refusal is not selected. -/
theorem checked_accumulate_of_ok (hb : readSource src s = .ok b) (hd : ¬ s.decimalRefused) (w : Addr) {g : Byte → Byte}
    (h : addCore s.a (g b) s.p.c = ⟨r, c, v⟩) :
    (decimalCheck (s.withPC w) >>= fun _ => readSource src (s.withPC w) >>= fun op =>
      (pure (accumulate (s.withPC w) (g op)) : Staged State)) =
      .ok { s with a := r, pc := w, p := { withZN s.p r with c := c, v := v } } := by
  rw [decimalCheck_of_not hd, staged_bind_ok, readSource_withPC, hb, staged_bind_ok, staged_pure,
    accumulate_eq (s := s.withPC w) h]
  rfl

/-- Each of the five arithmetic rules begins with the decimal check, whatever operand its mnemonic has. -/
theorem ruleOf_of_decimalRefused (hm : m ∈ ([.adc, .sbc, .sbcU, .rra, .isb] : List Mnemonic))
    (hfit : operandFits m o = true) (hd : s.decimalRefused) : ruleOf m o s₀ s = .error .refuse := by
  have hcheck : ∀ rest : Unit → Staged State, (decimalCheck s >>= rest) = .error .refuse := fun rest => by
    rw [show decimalCheck s = .error .refuse from if_pos hd, staged_bind_error]
  cases m
  case adc | sbc | sbcU =>
    cases o
    case immediate | memory => exact hcheck _
    all_goals cases hfit
  case rra | isb =>
    cases o
    case memory => exact hcheck _
    all_goals cases hfit
  all_goals exact absurd hm (by decide)

/-- An execution leaves REFUSED as it was, or the instruction is an arithmetic one that the decimal refusal bars. -/
theorem exec_keeps_refused_or_decimalRefused (h : exec i s = .next t) : t.refused = s.refused ∨
    (i.mnemonic ∈ ([.adc, .sbc, .sbcU, .rra, .isb] : List Mnemonic) ∧ s.decimalRefused) := by
  rw [exec_eq_ruleOf] at h
  rcases execute_cases h with hok | ⟨e, _, rfl⟩ | ⟨hrefuse, _⟩
  · exact .inl (ruleOf_quiet hok).refused
  · exact .inl rfl
  · rcases ruleOf_error hrefuse with ⟨_, hd, hm⟩ | ⟨_, hraise, _⟩
    · exact .inr ⟨hm, hd⟩
    · cases hraise

end Sys2Proof.Machine
end

section
/-! SUPPORT. The statements on addition and subtraction (R280 to R283, R409), from the lemmas above. -/

namespace Sys2Proof.Machine

/-- Settles O39: bit 7 is the sign bit, so the rule's bit pattern is the one of `addCore_vout`. -/
theorem addCoreSumCarryOverflow : Obligations.AddCoreSumCarryOverflow := by
  intro x m cin
  have hmsb : ∀ b : Byte, b.msb = b.getLsbD 7 := BitVec.msb_eq_getLsbD_last
  refine ⟨addCore_res_toNat x m cin, addCore_cout x m cin, ?_, addCore_vout_iff x m cin⟩
  simpa only [hmsb] using addCore_vout x m cin

/-- Settles O40: A, the operand and the carry, read on the staged state, are those of the start. -/
theorem addWithCarry : Obligations.AddWithCarry := by
  intro i s src v r hv hd h hr
  exact exec_source (f := addToA) h (fun _ _ => rfl) (checked_accumulate_of_ok (g := id) hv hd _ (addCore_eq hr))

/-- Settles O41: SBC and its duplicate run one rule, the addition of the operand's complement. -/
theorem subtractWithBorrow : Obligations.SubtractWithBorrow := by
  intro i s src v r hv hd h hr
  have hstaged := checked_accumulate_of_ok (g := (· ^^^ 0xFF)) hv hd (nextPC s i) (addCore_complement_eq hr)
  rcases h with h | h
  · exact exec_source (f := subFromA) h (fun _ _ => rfl) hstaged
  · exact exec_source (f := subFromA) h (fun _ _ => rfl) hstaged

/-- Settles O42: the five rules check before they read their operand, and no other path of an execution refuses. -/
theorem decimalArithmeticIsRefusedExactlyWhenSelected : Obligations.DecimalArithmeticIsRefusedExactlyWhenSelected := by
  refine fun i s => ⟨fun hm hd => ?_, fun hnot t h => ?_⟩
  · rw [exec_eq_ruleOf]
    exact execute_of_refuse (ruleOf_of_decimalRefused hm (operandFits_instr i) hd)
  · exact (exec_keeps_refused_or_decimalRefused h).resolve_right fun ⟨hm, hd⟩ => hnot.elim (· hm) (· hd)

end Sys2Proof.Machine
end

section
/-! SUPPORT. The shared form of the shifts and rotates (R300) on the staged state: what it leaves, given the byte and the bit
that its shift gives, and the execution of a form that runs it. -/

namespace Sys2Proof.Machine

variable {i : Instr} {m : Mnemonic} {op : Byte → Bool → ShiftResult} {s : State} {mode : MemMode} {ea : Addr} {k : Nat}
  {r : Byte} {c : Bool}

/-- The flags a shift writes (R300): C and SetNZ write different flags, so their order does not show. -/
theorem State.setC_setNZ_eq_withZN (s : State) (c : Bool) (r : Byte) :
    (s.setC c).setNZ r = { s with p := { withZN s.p r with c := c } } :=
  State.setNZ_eq_withZN (s.setC c) r

theorem shiftTarget_acc_of_eq (hop : op s.a s.p.c = ⟨r, c⟩) (v : Addr) :
    shiftTarget op .acc (s.withPC v) = .ok { s with a := r, pc := v, p := { withZN s.p r with c := c } } := by
  simp only [shiftTarget, State.withPC_a, State.withPC_p, hop, State.setC_setNZ_eq_withZN]
  rfl

theorem shiftTarget_mem_of_eq (hea : effAddr mode s = .ok ea) (hk : mapAddr s.cfg ea = .ok k)
    (hop : op (s.mem.get k) s.p.c = ⟨r, c⟩) (v : Addr) : shiftTarget op (.mem mode) (s.withPC v) =
      .ok { s with mem := s.mem.set k r, pc := v, p := { withZN s.p r with c := c } } := by
  simp only [shiftTarget, modifyAt_withPC hea hk, staged_bind_ok, State.withPC_p, hop, State.setC_setNZ_eq_withZN]
  rfl

/-- A shift of the accumulator, whose one form is one byte long. -/
theorem exec_shift_acc (h : i.triple = (m, .accumulator)) (hr : ∀ s₀ o, ruleOf m o s₀ = onTarget (shiftTarget op) o)
    (hop : op s.a s.p.c = ⟨r, c⟩) :
    exec i s = .next { s with a := r, pc := s.pc + 1, p := { withZN s.p r with c := c } } := by
  rw [exec_of_triple h]
  apply execute_of_ok
  rw [hr]
  exact shiftTarget_acc_of_eq hop _

/-- A shift of memory, where EA is mapped. -/
theorem exec_shift_of_map (h : i.triple = (m, .memory mode)) (hr : ∀ s₀ o, ruleOf m o s₀ = onTarget (shiftTarget op) o)
    (hea : effAddr mode s = .ok ea) (hk : mapAddr s.cfg ea = .ok k) (hop : op (s.mem.get k) s.p.c = ⟨r, c⟩) :
    exec i s = .next { s with mem := s.mem.set k r, pc := nextPC s i, p := { withZN s.p r with c := c } } :=
  exec_target h hr (shiftTarget_mem_of_eq hea hk hop _)

end Sys2Proof.Machine
end

section
/-! SUPPORT. The statements on the shifts and rotates (R300 to R304), from the lemmas above. -/

namespace Sys2Proof.Machine

/-- Settles O44: the number fixes the shifted byte, and each form runs the shared rule with its mnemonic's shift. -/
theorem memoryShifts : Obligations.MemoryShifts := by
  intro i s mode ea k r hea hk
  refine ⟨fun h hr => ?_, fun h hr => ?_, fun h hr => ?_, fun h hr => ?_⟩
  · exact exec_shift_of_map h (fun _ _ => rfl) hea hk (shiftASL_eq s.p.c hr)
  · exact exec_shift_of_map h (fun _ _ => rfl) hea hk (shiftLSR_eq s.p.c hr)
  · exact exec_shift_of_map h (fun _ _ => rfl) hea hk (shiftROL_eq hr)
  · exact exec_shift_of_map h (fun _ _ => rfl) hea hk (shiftROR_eq hr)

/-- Settles O43: the same shifts of A, which staging PC leaves alone. -/
theorem accumulatorShifts : Obligations.AccumulatorShifts := by
  intro s r
  refine ⟨fun hr => ?_, fun hr => ?_, fun hr => ?_, fun hr => ?_⟩
  · exact exec_shift_acc rfl (fun _ _ => rfl) (shiftASL_eq s.p.c hr)
  · exact exec_shift_acc rfl (fun _ _ => rfl) (shiftLSR_eq s.p.c hr)
  · exact exec_shift_acc rfl (fun _ _ => rfl) (shiftROL_eq hr)
  · exact exec_shift_acc rfl (fun _ _ => rfl) (shiftROR_eq hr)

end Sys2Proof.Machine
end

section
/-! SUPPORT. The shared rule of the branches (R320) on the staged state: its target as a number (R121), and the execution of a
form that runs it on a condition the flags decide. -/

namespace Sys2Proof.Machine

variable {i : Instr} {m : Mnemonic} {s : State} {off : Byte} {target : Addr} {cond : Bool} {taken : Prop} [Decidable taken]

/-- The sign-extended offset is its signed number modulo 65536, so adding it wraps as `w16` does. -/
theorem branchTarget_toNat (next : Addr) (off : Byte) :
    ((branchTarget next off).toNat : Int) = ((next.toNat : Int) + off.toInt) % 65536 := by
  have hoff : ((off.signExtend 16).toNat : Int) = off.toInt % 65536 := by
    rw [BitVec.signExtend, BitVec.toNat_ofInt]
    omega
  rw [branchTarget, BitVec.toNat_add]
  omega

/-- Wrapping the address of the next instruction before the offset is added does not show in the target. -/
theorem branchTarget_eq (htarget : (target.toNat : Int) = ((s.pc.toNat : Int) + 2 + off.toInt) % 65536) :
    branchTarget (s.pc + 2) off = target := by
  have hb := branchTarget_toNat (s.pc + 2) off
  have hnext : (s.pc + 2).toNat = (s.pc.toNat + 2) % 65536 := BitVec.toNat_add s.pc 2
  apply BitVec.eq_of_toNat_eq
  omega

theorem branch_withPC (hcond : cond = decide taken) (next : Addr) :
    branch cond off (s.withPC next) = .ok { s with pc := if taken then branchTarget next off else next } := by
  subst hcond
  by_cases h : taken <;> simp [branch, h, State.withPC]

/-- A branch, whose one form is two bytes long, writes PC and nothing else. -/
theorem exec_branch (h : i.triple = (m, .relative off)) (hr : ruleOf m (.relative off) s = branch cond off)
    (hcond : cond = decide taken) (htarget : (target.toNat : Int) = ((s.pc.toNat : Int) + 2 + off.toInt) % 65536) :
    exec i s = .next { s with pc := if taken then target else s.pc + 2 } := by
  rw [exec_of_triple h, ← branchTarget_eq htarget]
  apply execute_of_ok
  rw [hr]
  exact branch_withPC hcond _

end Sys2Proof.Machine
end

section
/-! SUPPORT. The statement on the branches (R321 to R328), from the lemmas above. -/

namespace Sys2Proof.Machine

/-- Settles O45: each branch runs the shared rule, on its flag or on the flag's complement. -/
theorem branchesFollowTheirFlag : Obligations.BranchesFollowTheirFlag := by
  intro s off target htarget
  refine ⟨?bpl, ?bmi, ?bvc, ?bvs, ?bcc, ?bcs, ?bne, ?beq⟩
  case bpl | bvc | bcc | bne => exact exec_branch rfl rfl Bool.decide_eq_false.symm htarget
  case bmi | bvs | bcs | beq => exact exec_branch rfl rfl Bool.decide_eq_true.symm htarget

end Sys2Proof.Machine
end

section
/-! SUPPORT. 16-bit values as pairs of bytes, the pointer read of JMP indirect (R122, D13), and the stack bytes after pushes
(R370, R371), read through the lemmas of memory. -/

namespace Sys2Proof.Machine

open Sys2Proof.Laws

variable {s : State} {m : Memory} {hi lo : Byte}

/-! ## Addresses as pairs of bytes -/

theorem hiLo_eq_ofNat (hi lo : Byte) : hiLo hi lo = BitVec.ofNat 16 (hi.toNat * 256 + lo.toNat) := by
  rw [← hiLo_toNat, BitVec.ofNat_toNat, BitVec.setWidth_eq]

/-- The two bytes whose number is that of w16(a + 2) are the bytes of the address a + 2. -/
theorem hiLo_eq_pc_add_two (h : hi.toNat * 256 + lo.toNat = (s.pc.toNat + 2) % 65536) : hiLo hi lo = s.pc + 2 :=
  BitVec.eq_of_toNat_eq <| by rw [hiLo_toNat, h, BitVec.toNat_add]; rfl

theorem hi8_toNat (w : Addr) : (hi8 w).toNat = w.toNat / 256 := by
  have hw := w.isLt
  simp only [hi8, BitVec.extractLsb'_toNat, Nat.shiftRight_eq_div_pow]
  omega

theorem lo8_toNat (w : Addr) : (lo8 w).toNat = w.toNat % 256 := by
  simp only [lo8, BitVec.extractLsb'_toNat, Nat.shiftRight_zero]

/-- The two masks select the high byte of one address and the low byte of another. -/
theorem maskedBytes_eq_hiLo (v w : Addr) : (v &&& 0xFF00) ||| (w &&& 0x00FF) = hiLo (hi8 v) (lo8 w) := by
  have hhigh : ∀ k < 16, (0xFF00 : Addr).getLsbD k = decide (8 ≤ k) := by decide
  have hlow : ∀ k < 16, (0x00FF : Addr).getLsbD k = decide (k < 8) := by decide
  apply BitVec.eq_of_getLsbD_eq
  intro k hk
  simp only [hiLo, hi8, lo8, BitVec.getLsbD_or, BitVec.getLsbD_and, hhigh k hk, hlow k hk, BitVec.getLsbD_append,
    BitVec.getLsbD_extractLsb']
  by_cases h : k < 8
  · simp [h]
  · simp [h, show k - 8 < 8 by omega, show 8 + (k - 8) = k by omega, show 8 ≤ k by omega]

/-- The address after a pointer's on the pointer's own page. -/
theorem samePageSucc_toNat (ptr : Addr) : ((ptr &&& 0xFF00) ||| ((ptr + 1) &&& 0x00FF)).toNat =
    ptr.toNat / 256 * 256 + (ptr.toNat + 1) % 256 := by
  have hsucc : (ptr + 1).toNat = (ptr.toNat + 1) % 65536 := BitVec.toNat_add ptr 1
  rw [maskedBytes_eq_hiLo, hiLo_toNat, hi8_toNat, lo8_toNat, hsucc]
  omega

/-- The pointer read of JMP indirect, where both of its bytes are readable. -/
theorem read16SamePage_of_ok {ptr ptrHi : Addr} (hptr : ptrHi.toNat = ptr.toNat / 256 * 256 + (ptr.toNat + 1) % 256)
    (hlo : memRead s ptr = .ok lo) (hhi : memRead s ptrHi = .ok hi) : read16SamePage s ptr = .ok (hiLo hi lo) := by
  have hsame : (ptr &&& 0xFF00) ||| ((ptr + 1) &&& 0x00FF) = ptrHi :=
    BitVec.eq_of_toNat_eq ((samePageSucc_toNat ptr).trans hptr.symm)
  simp only [read16SamePage, hsame, hlo, hhi, staged_bind_ok, staged_pure]

@[simp] theorem read16SamePage_withPC (s : State) (v ptr : Addr) :
    read16SamePage (s.withPC v) ptr = read16SamePage s ptr := rfl

/-- A pointer whose low byte is not readable fails as that read does. -/
theorem read16SamePage_of_error {ptr : Addr} {e : Abort} (h : memRead s ptr = .error e) :
    read16SamePage s ptr = .error e := by
  rw [read16SamePage, h, staged_bind_error]

/-! ## Stack bytes after pushes -/

theorem stackByte_set_of_ne {p q : Byte} (v : Byte) (h : p ≠ q) :
    (m.set (stackIndex p) v).get (stackIndex q) = m.get (stackIndex q) :=
  Memory.get_set_of_ne m v (mt stackIndex_inj.mp h)

/-- The two bytes of a pushed address are read back from their slots. -/
theorem stackBytes_of_pushedAddr (h : m.wf) (sp hi lo : Byte) :
    ((m.set (stackIndex sp) hi).set (stackIndex (sp - 1)) lo).get (stackIndex sp) = hi ∧
    ((m.set (stackIndex sp) hi).set (stackIndex (sp - 1)) lo).get (stackIndex (sp - 1)) = lo := by
  have hne : sp - 1 ≠ sp := by bv_omega
  refine ⟨?_, Memory.get_set_self (Memory.wf_set h _ _) _ _⟩
  rw [stackByte_set_of_ne _ hne, Memory.get_set_self h]

/-- The three bytes that a trap entry saves are read back from their slots. -/
theorem stackBytes_of_trapMemory (h : s.mem.wf) (ret : Addr) :
    (trapMemory ret s).get (stackIndex s.sp) = hi8 ret ∧
    (trapMemory ret s).get (stackIndex (s.sp - 1)) = lo8 ret ∧
    (trapMemory ret s).get (stackIndex (s.sp - 1 - 1)) = packP s.p true := by
  obtain ⟨hhi, hlo⟩ := stackBytes_of_pushedAddr h s.sp (hi8 ret) (lo8 ret)
  have hwf := Memory.wf_set (Memory.wf_set h (stackIndex s.sp) (hi8 ret)) (stackIndex (s.sp - 1)) (lo8 ret)
  have h₂₀ : s.sp - 1 - 1 ≠ s.sp := by bv_omega
  have h₂₁ : s.sp - 1 - 1 ≠ s.sp - 1 := by bv_omega
  exact ⟨(stackByte_set_of_ne _ h₂₀).trans hhi, (stackByte_set_of_ne _ h₂₁).trans hlo, Memory.get_set_self hwf _ _⟩

/-- Unpacking a packed status gives its flags back, but for B, which is neither unpacked (R39) nor told from the packed bit. -/
theorem unpackP_packP (p q : Flags) (b : Bool) : unpackP p (packP q b) = { q with b := p.b } := by
  obtain ⟨⟨hn, hv, _, _, hd, hi, hz, hc⟩, _⟩ := packedStatusLayout q b 0
  simp only [unpackP, hn, hv, hd, hi, hz, hc]

end Sys2Proof.Machine
end

section
/-! SUPPORT. What a jump, a call, a break and the two returns leave (R340 to R347): one equation for each execution. -/

namespace Sys2Proof.Machine

open Sys2Proof.Laws

variable {s t : State}

theorem exec_jmpInd_of_ok {ptr target : Addr} (h : read16SamePage s ptr = .ok target) :
    exec (.jmpInd ptr) s = .next { s with pc := target } := by
  rw [exec_of_triple rfl]
  apply execute_of_ok
  simp only [ruleOf, onJump, jumpThrough, read16SamePage_withPC, h, staged_bind_ok]
  rfl

theorem exec_jmpInd_of_raise {ptr : Addr} {e : ErrorRecord} (h : read16SamePage s ptr = .error (.raise e)) :
    exec (.jmpInd ptr) s = .next (s.haltOnError e) := by
  rw [exec_of_triple rfl]
  apply execute_of_raise
  simp only [ruleOf, onJump, jumpThrough, read16SamePage_withPC, h, staged_bind_error]

/-- A call pushes the address of its own last byte, and jumps. -/
theorem exec_jsrAbs (s : State) (w : Addr) : exec (.jsrAbs w) s = .next { s with
    mem := (s.mem.set (stackIndex s.sp) (hi8 (s.pc + 2))).set (stackIndex (s.sp - 1)) (lo8 (s.pc + 2)),
    sp := s.sp - 2, pc := w } := by
  have hret : s.pc + BitVec.ofNat 16 3 - 1 = s.pc + 2 := by bv_omega
  have hsp : s.sp - 1 - 1 = s.sp - 2 := by bv_omega
  rw [exec_of_triple rfl]
  apply execute_of_ok
  simp only [ruleOf, onCall, callSub, pushAddr_eq, staged_bind_ok, staged_pure, Operand.length, State.withPC_sp,
    State.withPC_pc, State.withPC_mem, hret, hsp]
  rfl

theorem trapPushed_sp (ret : Addr) (s : State) : (trapPushed ret s).sp = s.sp - 3 := by
  have hsp : s.sp - 1 - 1 - 1 = s.sp - 3 := by bv_omega
  exact hsp

/-- A trap entry whose vector bytes are mapped takes PC from the memory after the pushes. -/
theorem takeTrap_of_map {i j : Nat} (ret : Addr) (hi : mapAddr s.cfg 0xFFFE = .ok i)
    (hj : mapAddr s.cfg 0xFFFF = .ok j) : takeTrap ret s =
      .ok ((trapPushed ret s).withPC (hiLo ((trapMemory ret s).get j) ((trapMemory ret s).get i))) := by
  rw [takeTrap_eq, memRead_of_map (s := trapPushed ret s) hi, memRead_of_map (s := trapPushed ret s) hj]
  rfl

/-- A trap entry that completes leaves the pushed state, but for PC. -/
theorem takeTrap_eq_ok {ret : Addr} (h : takeTrap ret s = .ok t) :
    ∃ target, t = (trapPushed ret s).withPC target := by
  rw [takeTrap_eq] at h
  obtain ⟨lo, _, h⟩ := staged_bind_eq_ok h
  obtain ⟨hi, _, h⟩ := staged_bind_eq_ok h
  cases h
  exact ⟨_, rfl⟩

theorem exec_brk_of_map {i j : Nat} (hi : mapAddr s.cfg 0xFFFE = .ok i) (hj : mapAddr s.cfg 0xFFFF = .ok j) :
    exec .brk s = .next { s with
      mem := trapMemory (s.pc + 2) s, sp := s.sp - 3, p := { s.p with i := true },
      pc := hiLo ((trapMemory (s.pc + 2) s).get j) ((trapMemory (s.pc + 2) s).get i) } := by
  refine exec_implied rfl ?_
  rw [ruleOf, takeTrap_of_map (s := s.withPC (s.pc + 1)) _ hi hj, ← trapPushed_sp (s.pc + 2) s]
  rfl

/-- Only the largest memory reaches the vector. -/
theorem memSize_le_vector {k : MemSize} (h : k ≠ .b65536) : k.bytes ≤ (0xFFFE : Addr).toNat := by
  revert h
  cases k <;> decide

/-- A vector that Map rejects halts with its address, and the pushes are discarded. -/
theorem exec_brk_of_raise {e : ErrorRecord} (h : mapAddr s.cfg 0xFFFE = .error (.raise e)) :
    exec .brk s = .next (s.haltOnError e) := by
  rw [exec_of_triple rfl]
  apply execute_of_raise
  rw [ruleOf, takeTrap_eq, memRead_error.mpr, staged_bind_error]
  exact h

/-- What a completed BRK leaves on the stack. -/
theorem exec_brk_completed (h : exec .brk s = .next t) (ht : t.eng = .ready) :
    t.sp = s.sp - 3 ∧ t.mem = trapMemory (s.pc + 2) s := by
  obtain ⟨target, rfl⟩ := takeTrap_eq_ok (exec_completed h ht)
  exact ⟨trapPushed_sp (s.pc + 2) s, rfl⟩

theorem exec_rts (s : State) : exec .rts s = .next { s with
    sp := s.sp + 2,
    pc := hiLo (s.mem.get (stackIndex (s.sp + 2))) (s.mem.get (stackIndex (s.sp + 1))) + 1 } := by
  have hsp : s.sp + 1 + 1 = s.sp + 2 := by bv_omega
  refine exec_implied rfl ?_
  simp only [ruleOf, returnFromSub, pullAddr_eq, staged_bind_ok, staged_pure, State.withPC_sp, State.withPC_mem, hsp]
  rfl

theorem exec_rti (s : State) : exec .rti s = .next { s with
    sp := s.sp + 3,
    p := unpackP s.p (s.mem.get (stackIndex (s.sp + 1))),
    pc := hiLo (s.mem.get (stackIndex (s.sp + 3))) (s.mem.get (stackIndex (s.sp + 2))) } := by
  have hsp₂ : s.sp + 1 + 1 = s.sp + 2 := by bv_omega
  have hsp₃ : s.sp + 2 + 1 = s.sp + 3 := by bv_omega
  refine exec_implied rfl ?_
  simp only [ruleOf, returnFromTrap_eq, State.withPC_sp, State.withPC_mem, State.withPC_p, hsp₂, hsp₃]
  rfl

end Sys2Proof.Machine
end

section
/-! SUPPORT. The statements on jumps, calls, breaks and returns (R340 to R347, R511, R512), from the lemmas above. -/

namespace Sys2Proof.Machine

open Sys2Proof.Laws

/-- Settles O46: the indirect form's two reads decide it; a read fails only as Map does. -/
theorem jumpsSetPC : Obligations.JumpsSetPC := by
  refine fun s w ptr ptrHi => ⟨rfl, fun hptr => ⟨fun lo hi hlo hhi => ?_, fun e he => ?_⟩⟩
  · rw [← hiLo_eq_ofNat]
    exact exec_jmpInd_of_ok (read16SamePage_of_ok hptr hlo hhi)
  · obtain ⟨hraise, _⟩ := mapAddr_error (memRead_error.mp he)
    cases hraise
    exact ⟨rfl, exec_jmpInd_of_raise (read16SamePage_of_error he)⟩

/-- Settles O47: the bytes whose number is w16(a + 2) are the two bytes that the call pushes. -/
theorem jumpToSubroutine : Obligations.JumpToSubroutine := by
  intro s w hi lo hret
  rw [exec_jsrAbs, ← hiLo_eq_pc_add_two hret, hi8_hiLo, lo8_hiLo]

/-- Settles O48: the equation of RTS, with the pulled address as a number. -/
theorem returnFromSubroutine : Obligations.ReturnFromSubroutine := by
  intro s
  rw [exec_rts, hiLo_eq_ofNat, BitVec.ofNat_add _ 1]
  rfl

/-- Settles O51: the equation of RTI, with the pulled address as a number. -/
theorem returnFromInterrupt : Obligations.ReturnFromInterrupt := by
  rintro s _ rfl
  rw [exec_rti, hiLo_eq_ofNat]
  rfl

/-- Settles O50: the memory of the statement is that of the trap entry, and the vector decides the two cases. -/
theorem breakTakesTheTrap : Obligations.BreakTakesTheTrap := by
  intro s hi lo i j m hret hm
  have hmem : m = trapMemory (s.pc + 2) s := by
    have hsp : s.sp - 1 - 1 = s.sp - 2 := by bv_omega
    rw [hm, trapMemory, ← hiLo_eq_pc_add_two hret, hi8_hiLo, lo8_hiLo, hsp]
  refine ⟨fun hvecLo hvecHi => ?_, fun hpolicy hsize => ?_⟩
  · rw [exec_brk_of_map hvecLo hvecHi, hmem, hiLo_eq_ofNat]
  · exact exec_brk_of_raise (mapAddr_of_error hpolicy (memSize_le_vector hsize))

/-- Settles O49: SP and the two stacked bytes are those that JSR left, so RTS pulls the address it pushed. -/
theorem callThenReturnRestores : Obligations.CallThenReturnRestores := by
  intro s t u w hwf ht hsp hstack
  rw [exec_jsrAbs] at ht
  cases ht
  obtain ⟨hhi, hlo⟩ := stackBytes_of_pushedAddr hwf s.sp (hi8 (s.pc + 2)) (lo8 (s.pc + 2))
  have hsp₁ : u.sp + 1 = s.sp - 1 := by rw [hsp]; bv_omega
  have hsp₂ : u.sp + 2 = s.sp := by rw [hsp]; bv_omega
  have hpc : s.pc + 2 + 1 = s.pc + 3 := by bv_omega
  refine ⟨_, exec_rts u, ?_, hsp₂⟩
  rw [hsp₁, hsp₂, hstack, hstack, hhi, hlo, hiLo_hi8_lo8, hpc]

/-- Settles O52: SP and the three stacked bytes are those that BRK left, so RTI pulls the status and the address it pushed. -/
theorem breakThenReturnRestores : Obligations.BreakThenReturnRestores := by
  intro s t u hwf _ ht hready hsp hstack
  obtain ⟨htsp, htmem⟩ := exec_brk_completed ht hready
  obtain ⟨hhi, hlo, hp⟩ := stackBytes_of_trapMemory hwf (s.pc + 2)
  have hsp₁ : u.sp + 1 = s.sp - 1 - 1 := by rw [hsp, htsp]; bv_omega
  have hsp₂ : u.sp + 2 = s.sp - 1 := by rw [hsp, htsp]; bv_omega
  have hsp₃ : u.sp + 3 = s.sp := by rw [hsp, htsp]; bv_omega
  rw [htmem] at hstack
  have hstatus : u.mem.get (stackIndex (u.sp + 1)) = packP s.p true := by rw [hsp₁, hstack, hp]
  refine ⟨_, exec_rti u, ?_, hsp₃, ?_⟩
  · rw [hsp₂, hsp₃, hstack, hstack, hhi, hlo, hiLo_hi8_lo8]
  · rw [hstatus, unpackP_packP]

end Sys2Proof.Machine
end

section
/-! SUPPORT. The stack primitives as numbers (R370, R371), and what PLA and PLP leave on the staged state (R374, R375). -/

namespace Sys2Proof.Machine

theorem sub_one_eq_ofNat (b : Byte) : b - 1 = BitVec.ofNat 8 ((b.toNat + 255) % 256) := by
  bv_omega

theorem add_one_eq_ofNat (b : Byte) : b + 1 = BitVec.ofNat 8 ((b.toNat + 1) % 256) := by
  bv_omega

theorem stackIndex_add_one (sp : Byte) : stackIndex (sp + 1) = 256 + (sp.toNat + 1) % 256 :=
  congrArg (256 + ·) (BitVec.toNat_add sp 1)

/-- PLA never fails, as no pull does. -/
theorem pullA_eq (s : State) : pullA s = .ok
    (((s.withSP (s.sp + 1)).withA (s.mem.get (stackIndex (s.sp + 1)))).setNZ (s.mem.get (stackIndex (s.sp + 1)))) := by
  rw [pullA, pull_eq, staged_bind_ok]
  rfl

/-- PLP never fails, as no pull does. -/
theorem pullP_eq (s : State) : pullP s = .ok
    ((s.withSP (s.sp + 1)).withP (unpackP s.p (s.mem.get (stackIndex (s.sp + 1))))) := by
  rw [pullP, pull_eq, staged_bind_ok]
  rfl

end Sys2Proof.Machine
end

section
/-! SUPPORT. The statements on the stack, register transfer, flag and no-operation instructions (R370 to R397, R410), from the
lemmas above. -/

namespace Sys2Proof.Machine

/-! ## The stack -/

/-- Settles O20: the equation of a push, with the decremented SP as a number. -/
theorem pushWritesThenDecrements : Obligations.PushWritesThenDecrements := by
  intro s v
  rw [push_eq, sub_one_eq_ofNat]
  rfl

/-- Settles O21: the equation of a pull, with the incremented SP as a number. -/
theorem pullIncrementsThenReads : Obligations.PullIncrementsThenReads := by
  intro s
  rw [pull_eq, stackIndex_add_one, add_one_eq_ofNat]
  rfl

/-- Settles O22: the pull's increment undoes the push's decrement, so the pull reads the index that the push wrote. -/
theorem pullReturnsTheLastPush : Obligations.PullReturnsTheLastPush := by
  intro s t v hwf h
  rw [push_eq] at h
  cases h
  have hsp : s.sp - 1 + 1 = s.sp := BitVec.sub_add_cancel s.sp 1
  have hbyte : (s.mem.set (stackIndex s.sp) v).get (stackIndex (s.sp - 1 + 1)) = v := by
    rw [hsp, Memory.get_set_self hwf]
  exact ⟨_, (pull_eq _).trans (congrArg (fun b => Except.ok (b, _)) hbyte), hsp, rfl⟩

/-- Settles O53: each instruction runs one push or one pull on the staged state. -/
theorem stackInstructions : Obligations.StackInstructions := by
  intro s v
  refine ⟨exec_implied rfl (push_eq _ s.a), exec_implied rfl (push_eq _ (packP s.p true)), ?_⟩
  rintro rfl
  exact ⟨exec_implied_setNZ rfl (pullA_eq _) rfl, exec_implied rfl (pullP_eq _)⟩

/-! ## Transfers, flags and no-operations -/

/-- Settles O54: TXS writes SP alone, each other transfer its register and SetNZ of the value. -/
theorem registerTransfers : Obligations.RegisterTransfers := by
  intro s
  refine ⟨?tax, ?tay, ?txa, ?tya, ?tsx, ?txs⟩
  case txs => exact exec_implied rfl rfl
  all_goals exact exec_implied_setNZ rfl rfl rfl

/-- Settles O55: the rule of each instruction writes its one flag on the staged state. -/
theorem flagInstructions : Obligations.FlagInstructions := by
  intro s
  refine ⟨?clc, ?sec, ?cli, ?sei, ?cld, ?sed, ?clv⟩
  all_goals exact exec_implied rfl rfl

/-- Settles O56: whatever the operand, the rule is the empty one, so the staged PC is all that is committed. -/
theorem noOperationsOnlyAdvance : Obligations.NoOperationsOnlyAdvance := by
  intro i s hm
  have hrule : ruleOf i.mnemonic i.operand s = noOperation := by
    rcases hm with hm | hm
    · rw [hm, ruleOf]
    · rw [hm, ruleOf]
  rw [exec_eq_ruleOf, hrule]
  rfl

end Sys2Proof.Machine
end

section
/-! SUPPORT. The combined instructions on the staged state (R400 to R406), where EA is mapped: what each leaves, given what its
shift and its adder give. -/

namespace Sys2Proof.Machine

variable {op : Byte → Bool → ShiftResult} {s : State} {mode : MemMode} {ea : Addr} {k : Nat}
  {r q : Byte} {c c' v' : Bool}

/-- The shared form of SLO, RLA and SRE: the byte at EA is shifted, `g` combines A with the result, and SetNZ follows A. -/
theorem shift_combine_of_map (hea : effAddr mode s = .ok ea) (hk : mapAddr s.cfg ea = .ok k)
    (hop : op (s.mem.get k) s.p.c = ⟨r, c⟩) (g : Byte → Byte → Byte) (v : Addr) :
    (modifyAt mode (fun t => (op t s.p.c).res) (s.withPC v) >>= fun tu =>
      (pure (((tu.2.setC (op tu.1 s.p.c).carry).withA (g s.a (op tu.1 s.p.c).res)).setNZ (g s.a (op tu.1 s.p.c).res)) :
        Staged State)) =
      .ok { s with mem := s.mem.set k r, a := g s.a r, pc := v, p := { withZN s.p (g s.a r) with c := c } } := by
  rw [modifyAt_withPC hea hk, staged_bind_ok, staged_pure, hop, State.setNZ_eq_withZN]
  rfl

/-- RRA: the carry-in of the addition is the bit that the rotate shifts out. -/
theorem rotateRightAdd_of_map (hea : effAddr mode s = .ok ea) (hk : mapAddr s.cfg ea = .ok k) (hd : ¬ s.decimalRefused)
    (hror : shiftROR (s.mem.get k) s.p.c = ⟨r, c⟩) (hadd : addCore s.a r c = ⟨q, c', v'⟩) (v : Addr) :
    rotateRightAdd mode (s.withPC v) = .ok { s with
      mem := s.mem.set k r, a := q, pc := v, p := { withZN s.p q with c := c', v := v' } } := by
  simp only [rotateRightAdd, decimalCheck_of_not hd, modifyAt_withPC hea hk, staged_bind_ok, staged_pure, State.withPC_p, hror]
  exact congrArg Except.ok (accumulate_eq (s := ((s.withPC v).withMem (s.mem.set k r)).setC c) hadd)

/-- ISB: the incremented byte is subtracted from A. -/
theorem incSub_of_map (hea : effAddr mode s = .ok ea) (hk : mapAddr s.cfg ea = .ok k) (hd : ¬ s.decimalRefused)
    (hsub : addCore s.a ((s.mem.get k + 1) ^^^ 0xFF) s.p.c = ⟨q, c', v'⟩) (v : Addr) :
    incSub mode (s.withPC v) = .ok { s with
      mem := s.mem.set k (s.mem.get k + 1), a := q, pc := v, p := { withZN s.p q with c := c', v := v' } } := by
  simp only [incSub, decimalCheck_of_not hd, modifyAt_withPC hea hk, staged_bind_ok, staged_pure]
  exact congrArg Except.ok (accumulate_eq (s := (s.withPC v).withMem (s.mem.set k (s.mem.get k + 1))) hsub)

/-- DCP: A is compared with the decremented byte. -/
theorem decCompare_of_map (hea : effAddr mode s = .ok ea) (hk : mapAddr s.cfg ea = .ok k) (v : Addr) :
    decCompare mode (s.withPC v) = .ok { s with
      mem := s.mem.set k (s.mem.get k - 1), pc := v, p := compareFlags s.p s.a (s.mem.get k - 1) } := by
  simp only [decCompare, modifyAt_withPC hea hk, staged_bind_ok, staged_pure]
  rfl

end Sys2Proof.Machine
end

section
/-! SUPPORT. The statements on the combined instructions (R400 to R406), from the lemmas above. -/

namespace Sys2Proof.Machine

/-- Settles O57: the number fixes the shifted byte, and each form runs the shared rule with its shift and its operation. -/
theorem combinedShiftAndLogical : Obligations.CombinedShiftAndLogical := by
  intro i s mode ea k r hea hk
  refine ⟨fun h hr => ?slo, fun h hr => ?rla, fun h hr => ?sre⟩
  case slo =>
    exact exec_memory (f := shiftLeftOr) h (fun _ _ => rfl)
      (shift_combine_of_map hea hk (shiftASL_eq s.p.c hr) (· ||| ·) _)
  case rla =>
    exact exec_memory (f := rotateLeftAnd) h (fun _ _ => rfl)
      (shift_combine_of_map hea hk (shiftROL_eq hr) (· &&& ·) _)
  case sre =>
    exact exec_memory (f := shiftRightEor) h (fun _ _ => rfl)
      (shift_combine_of_map hea hk (shiftLSR_eq s.p.c hr) (· ^^^ ·) _)

/-- Settles O58: the numbers fix the modified byte and A; RRA adds and ISB subtracts as ADC and SBC do. -/
theorem combinedArithmetic : Obligations.CombinedArithmetic := by
  intro i s mode ea k r q hea hk
  refine ⟨fun h hd hr hq => ?rra, fun h hd hr hq => ?isb, fun h hr => ?dcp⟩
  case rra =>
    exact exec_memory h (fun _ _ => rfl) (rotateRightAdd_of_map hea hk hd (shiftROR_eq hr) (addCore_eq hq) _)
  case isb =>
    rw [eq_add_one_of_toNat hr] at hq ⊢
    exact exec_memory h (fun _ _ => rfl) (incSub_of_map hea hk hd (addCore_complement_eq hq) _)
  case dcp =>
    rw [eq_sub_one_of_toNat hr, ← compareFlags_eq]
    exact exec_memory h (fun _ _ => rfl) (decCompare_of_map hea hk _)

end Sys2Proof.Machine
end

section
/-! SUPPORT. The decode phase where it ends a step (R102, R501, R502, R507, R509): one equation for each stop and each error,
and the opcodes that classification answers unknown for. -/

namespace Sys2Proof.Machine

variable {s : State} {opc : Byte} {cell : Template} {a : Addr} {e : ErrorRecord}

/-! ## Fetches -/

/-- In memory mode a fetch beyond memory fails with its address under OOB_POLICY = error. -/
theorem fetchByte_out_of_bounds (hm : s.cfg.fetchSource = .memory) (hp : s.cfg.oobPolicy = .error)
    (h : s.cfg.memSize.bytes ≤ a.toNat) : fetchByte s a = .error (.raise (.outOfBoundsAddress a)) := by
  rw [fetchByte_of_memory hm, memRead_error.mpr (mapAddr_of_error hp h)]

/-- In stream mode a byte of CODE at PC is fetched, and PC is not at the end of the stream. -/
theorem fetchByte_of_code (hs : s.cfg.fetchSource = .stream) (hc : s.code[s.pc.toNat]? = some opc) :
    beyondCode s (s.pc.toNat + 1) = false ∧ fetchByte s s.pc = .ok opc := by
  obtain ⟨hlt, rfl⟩ := List.getElem?_eq_some_iff.mp hc
  exact ⟨beyondCode_eq_false.mpr fun _ => hlt, fetchByte_of_stream hs hlt⟩

theorem beyondCode_of_length_lt {n : Nat} (hs : s.cfg.fetchSource = .stream) (h : s.code.length < n) :
    beyondCode s n = true := by
  simp [beyondCode, hs, h]

/-! ## The stops and errors of the decode phase -/

theorem fetchInstr_of_end (h : beyondCode s (s.pc.toNat + 1) = true) : fetchInstr s = .stopped .endOfStream := by
  simp [fetchInstr, h]

theorem fetchInstr_of_opcode_error (h : beyondCode s (s.pc.toNat + 1) = false)
    (hf : fetchByte s s.pc = .error (.raise e)) : fetchInstr s = .failed e := by
  simp [fetchInstr, h, hf, fetchFailure]

theorem fetchInstr_of_halt (h : beyondCode s (s.pc.toNat + 1) = false) (hf : fetchByte s s.pc = .ok opc)
    (hc : classify s.cfg opc = .halt) : fetchInstr s = .stopped (.haltOpcode opc s.pc) := by
  simp [fetchInstr, h, hf, hc]

theorem fetchInstr_of_unknown (h : beyondCode s (s.pc.toNat + 1) = false) (hf : fetchByte s s.pc = .ok opc)
    (hc : classify s.cfg opc = .unknown) : fetchInstr s = .failed (.unknownOpcode opc s.pc) := by
  simp [fetchInstr, h, hf, hc]

theorem fetchInstr_of_truncated (h : beyondCode s (s.pc.toNat + 1) = false) (hf : fetchByte s s.pc = .ok opc)
    (hc : classify s.cfg opc = .admitted cell) (hb : beyondCode s (s.pc.toNat + cell.length) = true) :
    fetchInstr s = .failed (.truncatedOperand s.pc) := by
  simp [fetchInstr, h, hf, hc, hb]

theorem fetchOperands_of_first_error (hl : 2 ≤ cell.length) (hf : fetchByte s (s.pc + 1) = .error (.raise e)) :
    fetchOperands s cell = .failed e := by
  cases cell with
  | one i => exact absurd hl (by simp [Template.length])
  | two f => simp only [fetchOperands, hf, fetchFailure]
  | three f => simp only [fetchOperands, hf, fetchFailure]

theorem fetchOperands_of_second_error {b1 : Byte} (hl : cell.length = 3) (h1 : fetchByte s (s.pc + 1) = .ok b1)
    (hf : fetchByte s (s.pc + 2) = .error (.raise e)) : fetchOperands s cell = .failed e := by
  cases cell with
  | one i => cases hl
  | two f => cases hl
  | three f => simp only [fetchOperands, h1, hf, fetchFailure]

/-! ## Classification -/

/-- A byte in HALT_OPCODES is a halt opcode whatever the table says (R102, R133). -/
theorem classify_of_halt {cfg : Config} (h : opc ∈ cfg.haltOpcodes) : classify cfg opc = .halt :=
  if_pos h

/-- The empty cells of the opcode map are the 25 opcodes that R132 lists. -/
theorem tableCell_eq_none : tableCell opc = none ↔ opc ∈ unassignedOpcodes := by
  have hmap : ∀ opc : Byte, (tableCell opc).isNone = decide (opc ∈ unassignedOpcodes) := by decide
  rw [← Option.isNone_iff_eq_none, hmap, decide_eq_true_iff]

/-- Classification answers unknown for an opcode that is neither a halt opcode nor admitted (R102, R133). -/
theorem classify_eq_unknown {cfg : Config} :
    classify cfg opc = .unknown ↔ opc ∉ cfg.haltOpcodes ∧ ¬ opcodeAdmitted cfg opc := by
  rw [opcodeAdmitted, ← tableCell_eq_none]
  by_cases hhalt : opc ∈ cfg.haltOpcodes
  · simp [classify_of_halt hhalt, hhalt]
  · cases hcell : tableCell opc with
    | none => simp [classify, hhalt, hcell]
    | some c =>
      by_cases hout : cfg.illegalSet = .none ∧ opc ∈ undocumentedOpcodes <;> simp [classify, hhalt, hcell, hout]

end Sys2Proof.Machine
end

section
/-! SUPPORT. What a step records (R46, R505 to R508): its outcomes, and where the error it records comes from. -/

namespace Sys2Proof.Machine

variable {s t : State} {e : ErrorRecord}

/-- Everything a step leaves, by what it records: nothing, an error, a stop or a refusal. -/
theorem step_outcome (h : step s = .next t) : s.eng = .ready ∧
    (Quiet s t ∨ (∃ e, t = s.haltOnError e) ∨ (∃ r, t = s.haltOnStop r) ∨ t = s.haltOnRefusal) := by
  obtain ⟨he, ⟨r, _, ht⟩ | ⟨e, _, ht⟩ | ⟨i, _, hx⟩⟩ := step_inversion h
  · exact ⟨he, .inr (.inr (.inl ⟨r, ht⟩))⟩
  · exact ⟨he, .inr (.inl ⟨e, ht⟩)⟩
  · rcases exec_cases hx with q | ⟨e, ht⟩ | ht
    · exact ⟨he, .inl q⟩
    · exact ⟨he, .inr (.inl ⟨e, ht⟩)⟩
    · exact ⟨he, .inr (.inr (.inr ht))⟩

/-- The error that an execution records was raised by Map. -/
theorem exec_error_fromMap {i : Instr} (hx : exec i s = .next t) (hs : s.fault = none) (ht : t.fault = some e) :
    FromMap s.cfg (.raise e) := by
  rcases exec_outcome hx with q | ⟨e', hm, rfl⟩ | ⟨_, rfl⟩
  · cases (q.fault.trans hs).symm.trans ht
  · cases ht
    exact hm
  · cases hs.symm.trans ht

/-- The error that a step records: an unknown opcode at PC, an operand cut off by the end of the stream, or one that Map
raised in the decode phase or in the execution. -/
theorem step_error_cases (h : step s = .next t) (hs : s.fault = none) (ht : t.fault = some e) :
    (∃ opc, fetchByte s s.pc = .ok opc ∧ classify s.cfg opc = .unknown ∧ e = .unknownOpcode opc s.pc) ∨
    (s.cfg.fetchSource = .stream ∧ e = .truncatedOperand s.pc) ∨ FromMap s.cfg (.raise e) := by
  obtain ⟨_, ⟨r, _, rfl⟩ | ⟨e', hfail, rfl⟩ | ⟨i, _, hx⟩⟩ := step_inversion h
  · cases hs.symm.trans ht
  · cases ht
    exact fetchInstr_failed hfail
  · exact .inr (.inr (exec_error_fromMap hx hs ht))

end Sys2Proof.Machine
end

section
/-! SUPPORT. A memory operand that Map rejects (R503, R509): every rule that accesses its operand fails as the access does. -/

namespace Sys2Proof.Machine

/-- A staged sequence fails where its first part does. -/
theorem staged_bind_of_error {α β : Type} {x : Staged α} {f : α → Staged β} {e : Abort} (h : x = .error e) :
    (x >>= f) = .error e := by
  rw [h, staged_bind_error]

/-- A rule whose memory operand Map rejects fails with what Map raised, unless it accesses no operand or the decimal refusal
comes first. -/
theorem ruleOf_operand_error {m : Mnemonic} {mode : MemMode} {s s₀ : State} {ea : Addr} {e : Abort}
    (hfit : operandFits m (.memory mode) = true) (hm : m ∉ ([.nopU, .jmp, .jsr] : List Mnemonic))
    (hd : m ∈ ([.adc, .sbc, .rra, .isb] : List Mnemonic) → ¬ s.decimalRefused)
    (hea : effAddr mode s = .ok ea) (he : mapAddr s.cfg ea = .error e) : ruleOf m (.memory mode) s₀ s = .error e := by
  obtain ⟨hread, hstore, hmodify⟩ := operand_error hea he
  have checked : ∀ {f : Unit → Staged State}, ¬ s.decimalRefused → f () = .error e → (decimalCheck s >>= f) = .error e :=
    fun hd hf => by rw [show decimalCheck s = .ok () from if_neg hd, staged_bind_ok, hf]
  cases m
  case lda | ldx | ldy | cmp | cpx | cpy | and | ora | eor | bit | lax => exact staged_bind_of_error hread
  case adc | sbc => exact checked (hd (by decide)) (staged_bind_of_error hread)
  case sta | stx | sty | sax => exact hstore _
  case inc | dec | asl | lsr | rol | ror | slo | rla | sre | dcp => exact staged_bind_of_error (hmodify _)
  case rra | isb => exact checked (hd (by decide)) (staged_bind_of_error (hmodify _))
  case nopU | jmp | jsr => exact absurd (by decide) hm
  -- The other mnemonics have no memory operand.
  all_goals cases hfit

end Sys2Proof.Machine
end

section
/-! SUPPORT. The statements on the errors and the stops (R46, R500 to R509), from the lemmas above. -/

namespace Sys2Proof.Machine

/-- Settles O6: a step is quiet, or its start with one record added. -/
theorem haltingStepsChangeNothingButTheirRecord : Obligations.HaltingStepsChangeNothingButTheirRecord := by
  intro s t h
  obtain ⟨he, q | ⟨e, rfl⟩ | ⟨r, rfl⟩ | rfl⟩ := step_outcome h
  · refine ⟨fun hhalt => ?_, fun _ => ⟨he, q.fault, q.stop, q.refused⟩⟩
    cases (q.eng.trans he).symm.trans hhalt
  · exact ⟨fun _ => ⟨⟨rfl, rfl, rfl, rfl, rfl, rfl, rfl⟩, .inl ⟨e, rfl, rfl, rfl⟩⟩, nofun⟩
  · exact ⟨fun _ => ⟨⟨rfl, rfl, rfl, rfl, rfl, rfl, rfl⟩, .inr (.inl ⟨r, rfl, rfl, rfl⟩)⟩, nofun⟩
  · exact ⟨fun _ => ⟨⟨rfl, rfl, rfl, rfl, rfl, rfl, rfl⟩, .inr (.inr ⟨rfl, rfl, rfl⟩)⟩, nofun⟩

/-- Settles O12: the decode phase fails so exactly where classification answers unknown, and Map raises no such error. -/
theorem unknownOpcodeHalts : Obligations.UnknownOpcodeHalts := by
  intro s opc he hone hopc
  refine ⟨fun hhalt hadm => ?_, fun hknown hs t b a hstep ht => ?_⟩
  · exact step_of_failed he (fetchInstr_of_unknown hone hopc (classify_eq_unknown.mpr ⟨hhalt, hadm⟩))
  · obtain ⟨opc', hopc', hc, _⟩ | ⟨_, heq⟩ | ⟨_, heq, _⟩ := step_error_cases hstep hs ht
    · cases hopc.symm.trans hopc'
      obtain ⟨hhalt, hadm⟩ := classify_eq_unknown.mp hc
      exact hknown.elim hhalt hadm
    · cases heq
    · cases heq

/-- Settles O13: the check of the instruction's end fails in stream mode, and no other part of a step records this error. -/
theorem truncatedOperandHalts : Obligations.TruncatedOperandHalts := by
  refine ⟨fun s opc cell he hs hcode hc hlen => ?_, fun s t a hm hs hstep ht => ?_⟩
  · obtain ⟨hone, hopc⟩ := fetchByte_of_code hs hcode
    exact step_of_failed he (fetchInstr_of_truncated hone hopc hc (beyondCode_of_length_lt hs hlen))
  · obtain ⟨_, _, _, heq⟩ | ⟨hstream, _⟩ | ⟨_, heq, _⟩ := step_error_cases hstep hs ht
    · cases heq
    · cases hm.symm.trans hstream
    · cases heq

/-- Settles O14: both stops come before the errors of the decode phase, and a step adds one record at most. -/
theorem normalStopsHalt : Obligations.NormalStopsHalt := by
  refine ⟨fun s he hs hlen => ?_, fun s opc he hone hopc hhalt => ?_, fun s t hrec hstep hstop => ?_⟩
  · exact step_of_stopped he (fetchInstr_of_end (beyondCode_of_length_lt hs (Nat.lt_succ_of_le hlen)))
  · exact step_of_stopped he (fetchInstr_of_halt hone hopc (classify_of_halt hhalt))
  · obtain ⟨he, hout⟩ := step_outcome hstep
    obtain ⟨hfault, hnone, _⟩ := State.records_eq_zero.mp (hrec.1 he)
    rcases hout with q | ⟨e, rfl⟩ | ⟨r, rfl⟩ | rfl
    · exact q.fault.trans hfault
    · rw [State.haltOnError_stop, hnone] at hstop
      cases hstop
    · exact hfault
    · exact hfault

/-- Settles O15: the fetches run in the order of the addresses, and the first that Map rejects ends the decode phase. -/
theorem fetchOutOfBoundsHalts : Obligations.FetchOutOfBoundsHalts := by
  intro s he hm hp
  have hadmitted : ∀ {opc cell}, memRead s s.pc = .ok opc → classify s.cfg opc = .admitted cell →
      fetchInstr s = fetchOperands s cell := fun hopc hc =>
    fetchInstr_of_admitted ((fetchByte_of_memory hm _).trans hopc) hc fun hs => by cases hm.symm.trans hs
  refine ⟨fun hpc => ?_, fun opc cell hopc hc hlen hpc => ?_, fun opc b1 cell hopc hc hlen hb1 hpc => ?_⟩
  · exact step_of_failed he
      (fetchInstr_of_opcode_error (beyondCode_of_memory hm _) (fetchByte_out_of_bounds hm hp hpc))
  · exact step_of_failed he
      ((hadmitted hopc hc).trans (fetchOperands_of_first_error hlen (fetchByte_out_of_bounds hm hp hpc)))
  · exact step_of_failed he ((hadmitted hopc hc).trans
      (fetchOperands_of_second_error hlen ((fetchByte_of_memory hm _).trans hb1) (fetchByte_out_of_bounds hm hp hpc)))

/-- Settles O59: the rule accesses its operand on the staged state, where EA and the configuration are those of the start. -/
theorem operandOutOfBoundsHalts : Obligations.OperandOutOfBoundsHalts := by
  intro i s mode ea e ho hm hd hea he
  obtain ⟨heq, _⟩ := mapAddr_error he
  cases heq
  have hfit := operandFits_instr i
  rw [ho] at hfit
  refine ⟨rfl, ?_⟩
  rw [exec_eq_ruleOf, ho]
  exact execute_of_raise (ruleOf_operand_error hfit hm hd (by rw [effAddr_withPC, hea]) he)

/-- Settles O60: each source of a recorded error gives its kind, its information and its condition. -/
theorem recordedErrorsFitTheirCodes : Obligations.RecordedErrorsFitTheirCodes := by
  intro s t e hs hstep ht
  obtain ⟨opc, _, _, rfl⟩ | ⟨hstream, rfl⟩ | ⟨a, heq, hp, ha⟩ := step_error_cases hstep hs ht
  · exact .inl ⟨rfl, opc, rfl⟩
  · exact .inr (.inl ⟨rfl, hstream, rfl⟩)
  · cases heq
    exact .inr (.inr ⟨rfl, hp, a, rfl, ha⟩)

end Sys2Proof.Machine
end

section
/-! SUPPORT. The statements on session creation (R600 to R603), and that creation establishes the invariant. -/

namespace Sys2Proof.Machine

/-- A session created from launch inputs that keep the host's duty is well formed: nothing is recorded yet. -/
theorem State.create_wf {cfg : Config} {l : Launch} (h : l.wf cfg) : (State.create cfg l).wf := by
  obtain ⟨hmem, hkeys, hcode⟩ := h
  refine ⟨hmem, hkeys, hcode, fun _ => rfl, fun hhalted => ?_⟩
  cases hhalted

/-- Settles O1: each field of the created state, by the definition of session creation. -/
theorem sessionCreationGivesStatedValues : Obligations.SessionCreationGivesStatedValues :=
  fun _ _ => ⟨rfl, rfl, rfl, rfl, rfl, rfl, rfl, rfl, rfl, rfl, rfl, rfl, rfl, rfl, rfl, rfl, rfl⟩

/-- Settles O2: the launch inputs of reset keep the host's duty too. -/
theorem createdStatesAreWellFormed : Obligations.CreatedStatesAreWellFormed := by
  have hzero : Launch.zero.wf Config.standard := by decide
  exact ⟨State.create_wf hzero, fun _ _ => State.create_wf⟩

end Sys2Proof.Machine
end
